-- ==== Sys2Proof/Word.lean ====
section
/-!
DEFINITION. The two data widths of WTMIP: the 32-bit word of every register and memory word (R7), and the byte lane (R63).
-/

namespace Sys2Proof

/-- A byte lane of a word (R63). -/
abbrev Byte := BitVec 8

/-- A register or memory word (R7); a real-valued datum is held as its binary32 encoding (R9). -/
abbrev Word := BitVec 32

end Sys2Proof
end

