-- ==== Sys2Proof/Config.lean ====
section
/-!
DEFINITION. What an implementation of WTMIP fixes: the constants of R5, the parameters of R6, and the free values, each an
opaque constant with no body, for what the spec leaves unspecified (93_implementation_defined.md).
-/

namespace Sys2Proof

/-- NB, the number of mip bands (R5). -/
def numBands : Nat := 24

/-- EXTRA, the guard words at each end of a row (R5). -/
def extra : Nat := 4

/-- F2I_SIZE, the points of the frequency-to-index table (R5). -/
def f2iSize : Nat := 1024

@[simp] theorem numBands_eq : numBands = 24 := rfl
@[simp] theorem extra_eq : extra = 4 := rfl
@[simp] theorem f2iSize_eq : f2iSize = 1024 := rfl

/-- XFORM_NUMERICS (R152): how the two transforms round. `bounded` names XFORM_EPS (R153), which is OPEN and exists in that mode
only: the real `Config.xformEps eps`, `eps` telling one implementation's from another's (log 15). -/
inductive XformNumerics where
  | correctlyRounded
  | bounded (eps : Nat)
deriving DecidableEq, Repr

/-- The parameters of R6 that a model takes as an argument. The capacities SPEC_CAP and TAB_WORDS follow from them. -/
structure Config where
  /-- SRC_LEN_MAX, the largest source length. -/
  srcLenMax : Nat
  /-- TABLE_SIZE_MAX, the largest table size. -/
  tableSizeMax : Nat
  /-- XFORM_NUMERICS, with XFORM_EPS where it is used. -/
  xform : XformNumerics
deriving DecidableEq, Repr

/-- The reference configuration of R6. -/
def Config.reference : Config := ⟨8192, 4096, .correctlyRounded⟩

/-- SPEC_CAP = SRC_LEN_MAX/2 + 1 (R6). -/
def Config.specCap (c : Config) : Nat := c.srcLenMax / 2 + 1

/-- TAB_WORDS = NB * (TABLE_SIZE_MAX + 2*EXTRA) (R6). -/
def Config.tabWords (c : Config) : Nat := numBands * (c.tableSizeMax + 2 * extra)

/-- The constraints R6 puts on the parameters. That XFORM_EPS is above 0 is part of its type (`XformEps`). -/
abbrev Config.wf (c : Config) : Prop :=
  c.srcLenMax % 2 = 0 ∧ 4 ≤ c.srcLenMax ∧ c.srcLenMax ≤ 16382 ∧
  c.tableSizeMax % 2 = 0 ∧ 2048 ≤ c.tableSizeMax ∧ c.tableSizeMax ≤ 10914

/-! ## Free values

Nothing constrains any of these: a claim that holds of the model holds whatever they are. -/

/-- U1 (log 5): the byte a RAM offset holds since power-on number `epoch`, until it is written. -/
opaque Config.ramDraw (epoch offset : Nat) : Byte

/-- U2 (log 6): the word that abort number `draw` leaves at a RAM offset of the aborted command's write set. -/
opaque Config.abortDraw (draw offset : Nat) : Word

/-- U3 (log 7): what read number `draw` of a location in the write set of the command in flight returns. -/
opaque Config.busyReadDraw (draw : Nat) : Word

/-- U7, U8 (log 2): how many host accesses are performed between acceptance number `draw` and the engine's transition. -/
opaque Config.latency (draw : Nat) : Nat

/-- R10 leaves the sign and payload of a NaN result to IEEE 754, which leaves them open (log 11): the 23 bits that are not fixed,
by the two operands. -/
opaque Config.nanBits (a b : Word) : BitVec 23

/-- The domain of XFORM_EPS (R6): a real > 0. -/
structure XformEps where
  val : ℝ := 1
  pos : 0 < val := by norm_num
deriving Inhabited

/-- R6, R153, D36 (log 15): the XFORM_EPS that `eps` names. -/
opaque Config.xformEps (eps : Nat) : XformEps

/-- U4, U5, U6 (log 15): what a BOUNDED forward transform answers for the real or (`im`) imaginary part of bin k of these samples,
one of the words that are legal for that output (R153); `none` stands for the nearest word. -/
opaque Config.rfftDraw (eps : Nat) (samples : List Word) (im : Bool) (k : Nat) (legal : Word → Prop) : Option { w : Word // legal w }

/-- U4, U5, U6 (log 15): what a BOUNDED inverse transform of length M answers at n for these bins, one of the words that are legal
for that output (R153); `none` stands for the nearest word. -/
opaque Config.irfftDraw (eps : Nat) (bins : List (Word × Word)) (tableSize n : Nat) (legal : Word → Prop) :
  Option { w : Word // legal w }

/-- The value of a transform output whose correct rounding the model's search left open (log 12: no such output is known, and the
norm bound of log 12 says none exists). Free, so that no claim can rest on it. -/
opaque Config.unroundedSum (terms : List (Int × Nat)) : Word

/-- The value of a band index 23·ln(a/b)/ln 600 whose correct rounding the model's search left open (log 13: none exists for a
binary32 frequency). Free, so that no claim can rest on it. -/
opaque Config.unroundedIndex (a b : Nat) : Word

/-- D37, U19 (log 18): which 2^21-byte region of the system's address space the block sits in. -/
opaque Config.wtmipRegion : Nat

/-- WTMIP_BASE (R6), the system address of offset 0: OPEN, aligned to 2^21. -/
def Config.wtmipBase : Nat := Config.wtmipRegion * 2 ^ 21

/-- The offset A[20:0] the block decodes from a system address (R7), for an address inside its region; the platform selects the
region (R61). -/
def Config.offsetOfSystem (addr : Nat) : Option (BitVec 21) :=
  if Config.wtmipBase ≤ addr ∧ addr < Config.wtmipBase + 2 ^ 21 then some (BitVec.ofNat 21 addr) else none

end Sys2Proof
end

