-- ==== Sys2Proof/Syntax.lean ====
section
/-!
DEFINITION. The commands of WTMIP, one constructor for each row of spec/opcode_table.json (R93), and the error codes a command
can complete with (R241).
-/

namespace Sys2Proof

/-- A command (R93). `band` is the BAND field of SYNTH, CUTOFF and PAD_ROW: 5 bits, unsigned, no scaling (R90, R91). -/
inductive Instr where
  | nop
  | fftFwd
  | synth (band : BitVec 5)
  | indexF
  | indexX
  | rangeI
  | rangeF
  | cutoff (band : BitVec 5)
  | padRow (band : BitVec 5)
  | padAll
  | build
  | buildAudio
deriving DecidableEq, Repr

/-- The codes of R241. Codes 0x07 to 0xFF are never produced (U15), so they have no constructor. -/
inductive ErrCode where
  | ok
  | illegalCmd
  | reservedBits
  | badBand
  | badLength
  | capacity
  | badOperand
deriving DecidableEq, Repr

/-- The code's number in STATUS.ERRCODE (R241). -/
def ErrCode.code : ErrCode → BitVec 8
  | .ok => 0x00#8
  | .illegalCmd => 0x01#8
  | .reservedBits => 0x02#8
  | .badBand => 0x03#8
  | .badLength => 0x04#8
  | .capacity => 0x05#8
  | .badOperand => 0x06#8

/-- The OP field of a command (R93). -/
def Instr.opcode : Instr → BitVec 8
  | .nop => 0x00#8
  | .fftFwd => 0x01#8
  | .synth _ => 0x02#8
  | .indexF => 0x03#8
  | .indexX => 0x04#8
  | .rangeI => 0x05#8
  | .rangeF => 0x06#8
  | .cutoff _ => 0x07#8
  | .padRow _ => 0x08#8
  | .padAll => 0x09#8
  | .build => 0x0A#8
  | .buildAudio => 0x0B#8

/-- The BAND field of a command: 0 where the opcode does not use it (R93). -/
def Instr.bandField : Instr → BitVec 5
  | .synth b => b
  | .cutoff b => b
  | .padRow b => b
  | .nop => 0#5
  | .fftFwd => 0#5
  | .indexF => 0#5
  | .indexX => 0#5
  | .rangeI => 0#5
  | .rangeF => 0#5
  | .padAll => 0#5
  | .build => 0#5
  | .buildAudio => 0#5

end Sys2Proof
end

