-- ==== Sys2Proof/WellFormed.lean ====
section
/-!
DEFINITION. When a command is well formed: the one check R94 makes on an operand of the syntax, BAND < NB.
-/

namespace Sys2Proof

/-- A command that decoding can answer: its band, if it has one, is below NB (R94, R95). -/
abbrev Instr.wf (i : Instr) : Prop := i.bandField.toNat < numBands

end Sys2Proof
end

