-- ==== Sys2Proof/Decode.lean ====
section
/-!
DEFINITION. Decoding of a command word (R90 to R96), total on every word, and the encoder beside it (R93).
-/

namespace Sys2Proof

/-- OP, bits [7:0] (R90, R91). -/
def opField (c : Word) : Nat := (c.extractLsb' 0 8).toNat

/-- BAND, bits [12:8] (R90, R91). -/
def bandBits (c : Word) : BitVec 5 := c.extractLsb' 8 5

/-- RSV, bits [31:13] (R90, R91). -/
def rsvField (c : Word) : BitVec 19 := c.extractLsb' 13 19

/-- The command of an opcode and a band, by R93; `none` for the reserved opcodes 0x0C to 0xFF. -/
def instrOf (op : Nat) (b : BitVec 5) : Option Instr :=
  match op with
  | 0x00 => some .nop
  | 0x01 => some .fftFwd
  | 0x02 => some (.synth b)
  | 0x03 => some .indexF
  | 0x04 => some .indexX
  | 0x05 => some .rangeI
  | 0x06 => some .rangeF
  | 0x07 => some (.cutoff b)
  | 0x08 => some (.padRow b)
  | 0x09 => some .padAll
  | 0x0A => some .build
  | 0x0B => some .buildAudio
  | _ => none

/-- Whether an opcode uses BAND: SYNTH, CUTOFF and PAD_ROW (R93, R94). -/
def opUsesBand (op : Nat) : Bool := op == 0x02 || op == 0x07 || op == 0x08

/-- R94, its checks in its order: ILLEGAL_CMD, RESERVED_BITS on [31:13], RESERVED_BITS on an unused BAND, BAD_BAND. -/
def decode (c : Word) : Except ErrCode Instr :=
  match instrOf (opField c) (bandBits c) with
  | none => .error .illegalCmd
  | some i =>
    if rsvField c ≠ 0 then .error .reservedBits
    else if opUsesBand (opField c) = false ∧ bandBits c ≠ 0 then .error .reservedBits
    else if opUsesBand (opField c) = true ∧ numBands ≤ (bandBits c).toNat then .error .badBand
    else .ok i

/-- The word of a command (R93): bits [31:13] zero, BAND in [12:8], OP in [7:0]. -/
def encode (i : Instr) : Word := 0#19 ++ i.bandField ++ i.opcode

/-- The instruction the decoder reads from a row of spec/opcode_table.json whose bits are `w`. Every command is one 32-bit
word (R96), which is CMD as written (R32): no byte order enters, and bits above `nbits` are 0. -/
def decodeTableWord (nbits w : Nat) : Option Instr :=
  match decode (BitVec.ofNat 32 (w % 2 ^ nbits)) with
  | .ok i => some i
  | .error _ => none

end Sys2Proof
end

