-- ==== Sys2Proof/Machine/State.lean ====
section
/-!
DEFINITION. The state of the whole system (R20, R50, R285) as plain data: registers, RAM words, engine, the host's accesses to
come, and the model's counters of free values; the reasons a step can stop; the state after hard reset (R270).
-/

namespace Sys2Proof.Machine

/-- The RAM words that something has written, byte by byte: (byte offset in the block, byte), offsets strictly rising. An offset
that is not listed holds no value of the model's: what it reads as is a free value (R52, U1; log 5). -/
structure Memory where
  cells : List Host.Cell
deriving DecidableEq, Repr

/-- The canonical form: offsets strictly rising. Every listed cell holds a value and an unlisted one holds none, so no cell can
equal what an unlisted offset holds. -/
abbrev Memory.wf (m : Memory) : Prop := (m.cells.map Prod.fst).Pairwise (· < ·)

/-- The registers of R22 that stand at an offset of their own; every other offset of the register page is reserved (R45). -/
inductive Reg where
  | id | version | caps0 | caps1 | caps2 | ctrl | irqEn | status | cmd | srcLen | tableSize | refRate | amplitude | cutoff
  | freq | index | specLen | result0 | result1 | resultIndex | harmCount
deriving DecidableEq, Repr

/-- What an offset of the block names (R60). -/
inductive Location where
  | reg (r : Reg)
  | reserved
  | f2i (i : Nat)
  | sf (t : Nat)
  | sample
  | spec
  | tab
  | unmapped
deriving DecidableEq, Repr

/-- One event from outside the block: a bus access at an offset A[20:0] (R62, R285), or the reset input (R270). `narrow` is the
bus's mark of an access narrower than 32 bits; `lanes` has a bit for each enabled byte lane of a write (R62(d)). -/
inductive HostEvent where
  | read (offset : BitVec 21) (narrow : Bool)
  | write (offset : BitVec 21) (narrow : Bool) (lanes : BitVec 4) (value : Word)
  | hardReset
deriving DecidableEq, Repr

/-- The response that ends a bus access (R62): OKAY or ERROR, and the data of a read. -/
inductive Response where
  | okayRead (data : Word)
  | okayWrite
  | errorRead (data : Word)
  | errorWrite
deriving DecidableEq, Repr

/-- The engine state of R50. BUSY(c): c is the CMD register, which no host write changes while busy (R32), so it is stored there.
`left` is how many host accesses are still performed before the engine's transition (R281, U8; log 2). -/
inductive Engine where
  | idle
  | busy (left : Nat)
deriving DecidableEq, Repr

structure State where
  /-- The parameters of R6: no step changes them (R273; log 4). -/
  cfg : Config
  /-- IDLE or BUSY(c) (R50); STATUS.BUSY is this (R30). -/
  engine : Engine
  /-- IRQ_EN.DONE_IE (R29). -/
  doneIe : Bool
  /-- IRQ_EN.ERR_IE (R29). -/
  errIe : Bool
  /-- STATUS.DONE (R30). -/
  done : Bool
  /-- STATUS.ERR (R30). -/
  err : Bool
  /-- STATUS.CMD_OVERRUN (R30). -/
  cmdOverrun : Bool
  /-- STATUS.BUSY_WRITE (R30). -/
  busyWrite : Bool
  /-- STATUS.TABLES_VALID (R30, R53). -/
  tablesValid : Bool
  /-- STATUS.ERRCODE (R30, R241). -/
  errCode : ErrCode
  /-- CMD: the last accepted command word (R32). -/
  cmd : Word
  /-- SRC_LEN (R33). -/
  srcLen : Word
  /-- TABLE_SIZE (R34). -/
  tableSize : Word
  /-- REF_RATE, binary32 (R35). -/
  refRate : Word
  /-- AMPLITUDE, binary32 (R36). -/
  amplitude : Word
  /-- CUTOFF, binary32 (R37). -/
  cutoff : Word
  /-- FREQ, binary32 (R38). -/
  freq : Word
  /-- INDEX, int32 (R39). -/
  index : Word
  /-- SPEC_LEN, WARL (R40). -/
  specLen : Word
  /-- RESULT0, binary32 (R41). -/
  result0 : Word
  /-- RESULT1, binary32 (R42). -/
  result1 : Word
  /-- RESULT_INDEX (R43). -/
  resultIndex : Word
  /-- HARM_COUNT (R44). -/
  harmCount : Word
  /-- The written bytes of SAMPLE, SPEC and TAB (R46 to R48). -/
  mem : Memory
  /-- The model's own: which power-on contents the unwritten RAM bytes have (R52, U1; log 5). -/
  ramEpoch : Nat
  /-- The model's own: the number of the next free value (log 20). -/
  draws : Nat
  /-- The model's own: the events from outside still to come, the next one first (R285; log 1). -/
  host : List HostEvent
  /-- The model's own: the response to the latest bus access, if there was one since hard reset (R62; log 9). -/
  response : Option Response
deriving DecidableEq, Repr

/-- Why a step could stop with a fault: never. WTMIP takes no trap (R240, R260), a bad access gets a response (R62), and every
accepted command completes (R245), so the type has no constructor (log 19). -/
inductive Fault where
deriving DecidableEq, Repr

/-- Why a step could have no meaning. -/
inductive Refusal where
  /-- An arm of exec whose instruction has no meaning yet. No arm of this model answers it. Safe: the machine stops. -/
  | notModelled (mnemonic : String)
deriving DecidableEq, Repr

/-- The state in which a hard reset leaves a block of configuration `c` (R270, R22): the RAMs hold power-on contents number
`epoch`, nothing of the host's list is taken away, and no access has been answered. -/
def State.afterHardReset (c : Config) (epoch draws : Nat) (host : List HostEvent) : State where
  cfg := c
  engine := .idle
  doneIe := false
  errIe := false
  done := false
  err := false
  cmdOverrun := false
  busyWrite := false
  tablesValid := false
  errCode := .ok
  cmd := 0x00000000#32
  srcLen := 0x00000000#32
  tableSize := 0x00000800#32
  refRate := 0x472C4400#32
  amplitude := 0x3F800000#32
  cutoff := 0x00000000#32
  freq := 0x00000000#32
  index := 0x00000000#32
  specLen := 0x00000000#32
  result0 := 0x00000000#32
  result1 := 0x00000000#32
  resultIndex := 0x00000000#32
  harmCount := 0x00000000#32
  mem := ⟨[]⟩
  ramEpoch := epoch
  draws := draws
  host := host
  response := none

/-- The machine right after hard reset (R270) in the reference configuration (R6), with no host event to come. -/
def State.reset : State := State.afterHardReset Config.reference 0 1 []

end Sys2Proof.Machine
end

