-- ==== Sys2Proof/Machine/Flags.lean ====
section
/-!
DEFINITION. The flags of WTMIP: the STATUS and IRQ_EN fields (R29, R30), the STATUS word, its write-one-to-clear rule (R31), and
the interrupt output (R51). There are no condition codes (R54).
-/

namespace Sys2Proof.Machine

/-- STATUS.BUSY: the engine is in BUSY(c) (R30, R50). -/
def State.isBusy (s : State) : Bool :=
  match s.engine with
  | .idle => false
  | .busy _ => true

/-- The STATUS word of R30 with the given TABLES_VALID bit. -/
def State.statusWordWith (s : State) (tablesValid : Bool) : Word :=
  0#16 ++ s.errCode.code ++ 0#2 ++ BitVec.ofBool tablesValid ++ BitVec.ofBool s.busyWrite ++ BitVec.ofBool s.cmdOverrun
    ++ BitVec.ofBool s.err ++ BitVec.ofBool s.done ++ BitVec.ofBool s.isBusy

/-- STATUS (R30): reserved bits read as 0. -/
def State.statusWord (s : State) : Word := s.statusWordWith s.tablesValid

/-- IRQ_EN (R29): reserved bits read as 0. -/
def State.irqEnWord (s : State) : Word := 0#30 ++ BitVec.ofBool s.errIe ++ BitVec.ofBool s.doneIe

/-- The interrupt output (R51), level-sensitive and active high. -/
def State.irq (s : State) : Bool := (s.done && s.doneIe) || (s.err && s.errIe)

/-- A host write of `v` to STATUS (R31): each W1C field whose bit is 1 is cleared; ERR clears ERRCODE with it. It is also how a
host acknowledges a completion or an error (R252, R260): nothing is returned to. -/
def State.writeStatus (s : State) (v : Word) : State :=
  { s with
    done := s.done && !v.getLsbD 1
    err := s.err && !v.getLsbD 2
    errCode := if v.getLsbD 2 then .ok else s.errCode
    cmdOverrun := s.cmdOverrun && !v.getLsbD 3
    busyWrite := s.busyWrite && !v.getLsbD 4 }

/-- A host write of `v` to IRQ_EN (R29). -/
def State.writeIrqEn (s : State) (v : Word) : State :=
  { s with doneIe := v.getLsbD 0, errIe := v.getLsbD 1 }

end Sys2Proof.Machine
end

