-- ==== Sys2Proof/Machine/Binary32.lean ====
section
/-!
DEFINITION. IEEE 754 binary32 values and the rounding primitives of R9 and R10. The exact value of a finite word is an integer
count of 2^-149, the smallest subnormal; every operation computes that exactly and rounds once.
-/

namespace Sys2Proof.Machine

/-- The sign bit, bit 31 (R9). -/
def signBit (w : Word) : Bool := w.msb

/-- Bits 30:0: for two non-NaN words of one sign, the order of these numbers is the order of the magnitudes (R9). -/
def magBits (w : Word) : Nat := w.toNat % 2 ^ 31

/-- The biased exponent field, bits 30:23 (R9). -/
def expField (w : Word) : Nat := magBits w / 2 ^ 23

/-- The fraction field, bits 22:0 (R9). -/
def fracField (w : Word) : Nat := w.toNat % 2 ^ 23

def isNaN (w : Word) : Bool := expField w == 255 && fracField w != 0

def isInf (w : Word) : Bool := expField w == 255 && fracField w == 0

def isFinite (w : Word) : Bool := expField w != 255

/-- The magnitude encoded by bits 30:0, in units of 2^-149. At 0x7F800000 (infinity) it gives 2^128, the value one step above
the largest finite one, so that comparisons and rounding need no case of their own for it. -/
def magOf (e : Nat) : Nat :=
  if e < 2 ^ 23 then e else (2 ^ 23 + e % 2 ^ 23) * 2 ^ (e / 2 ^ 23 - 1)

/-- The exact value of a word that is not a NaN, in units of 2^-149 (infinities as said at `magOf`). -/
def scaled (w : Word) : Int := if signBit w then -(magOf (magBits w) : Int) else (magOf (magBits w) : Int)

/-- Division rounded to the nearest integer, ties to even. -/
def divRoundEven (num den : Nat) : Nat :=
  let q := num / den
  let r := num % den
  if den < 2 * r ∨ (2 * r = den ∧ q % 2 = 1) then q + 1 else q

/-- Bits 30:0 of the binary32 value nearest to (num/den)·2^-149, ties to even: subnormals kept, 0x7F800000 (infinity) from
2^128·(1 - 2^-25) up (R10). The quotient keeps 24 bits, and the exponent field counts the bits dropped. -/
def roundMag (num den : Nat) : Nat :=
  let shift := Nat.log2 (num / den) - 23
  min 0x7F800000 (shift * 2 ^ 23 + divRoundEven num (den * 2 ^ shift))

/-- A word from its sign and its bits 30:0. -/
def mkWord (neg : Bool) (mag : Nat) : Word := BitVec.ofNat 32 ((if neg then 2 ^ 31 else 0) + mag)

/-- RN32 of the real (num/den)·2^-149, den > 0 (R10): +0 for an exact 0. A nonzero real that rounds to zero keeps its sign
(DEDUCED, log 10). -/
def rn32 (num : Int) (den : Nat) : Word := mkWord (decide (num < 0)) (roundMag num.natAbs den)

/-- +0.0. -/
def posZero : Word := 0x00000000#32

/-- A NaN result of two operands: its sign and payload are free (R10, D2; log 11). -/
def nanResult (a b : Word) : Word :=
  let x := Config.nanBits a b
  x.extractLsb' 22 1 ++ 0x1FF#9 ++ x.extractLsb' 0 22

/-- `neg32(v)` flips bit 31 exactly (R10). -/
def neg32 (v : Word) : Word := v ^^^ 0x80000000#32

/-- `add32(a, b) = RN32(a + b)`, with the IEEE rules for infinities, NaN and the sign of a zero sum (R10). -/
def add32 (a b : Word) : Word :=
  if isNaN a || isNaN b then nanResult a b
  else if isInf a then (if isInf b && signBit a != signBit b then nanResult a b else a)
  else if isInf b then b
  else if scaled a + scaled b = 0 then mkWord (signBit a && signBit b) 0
  else rn32 (scaled a + scaled b) 1

/-- `sub32(a, b) = RN32(a - b)` (R10). -/
def sub32 (a b : Word) : Word := add32 a (neg32 b)

/-- `mul32(a, b) = RN32(a * b)` (R10): the sign of every result is the exclusive or of the signs. -/
def mul32 (a b : Word) : Word :=
  let neg := signBit a != signBit b
  if isNaN a || isNaN b then nanResult a b
  else if isInf a || isInf b then
    (if magBits a = 0 ∨ magBits b = 0 then nanResult a b else mkWord neg 0x7F800000)
  else mkWord neg (roundMag (magOf (magBits a) * magOf (magBits b)) (2 ^ 149))

/-- `div32(a, b) = RN32(a / b)` (R10): the sign of every result is the exclusive or of the signs. -/
def div32 (a b : Word) : Word :=
  let neg := signBit a != signBit b
  if isNaN a || isNaN b then nanResult a b
  else if isInf a then (if isInf b then nanResult a b else mkWord neg 0x7F800000)
  else if isInf b then mkWord neg 0
  else if magBits b = 0 then (if magBits a = 0 then nanResult a b else mkWord neg 0x7F800000)
  else mkWord neg (roundMag (magOf (magBits a) * 2 ^ 149) (magOf (magBits b)))

/-- floor of a binary32 value (R11). -/
def floor32 (v : Word) : Int := scaled v / 2 ^ 149

/-- `float32(n)` = RN32(n) of an integer (R15). -/
def float32 (n : Int) : Word := rn32 (n * 2 ^ 149) 1

/-- `clampI(v, lo, hi)` (R11). -/
def clampI (v lo hi : Int) : Int := if v < lo then lo else if hi < v then hi else v

end Sys2Proof.Machine
end

