-- ==== Sys2Proof/Machine/Ops.lean ====
section
/-!
DEFINITION. The operations the commands share: RAM words in little-endian byte lanes (R60, R63), the row layout of the table
(R14), acceptance of a command (R32), and completion (R243) with the command error (R13, R240): the one way a command ends.
-/

namespace Sys2Proof.Machine

/-! ## Memory -/

/-- The byte listed at an offset, if there is one. -/
def Memory.byte? (m : Memory) (a : Nat) : Option Byte := m.cells.lookup a

/-- The four byte lanes of a word at offset `a`: lane j holds bits [8j+7 : 8j] (R63). -/
def laneCells (a : Nat) (w : Word) : List Host.Cell :=
  [(a, w.extractLsb' 0 8), (a + 1, w.extractLsb' 8 8), (a + 2, w.extractLsb' 16 8), (a + 3, w.extractLsb' 24 8)]

/-- Consecutive words from offset `a` up. -/
def blockCells : Nat → List Word → List Host.Cell
  | _, [] => []
  | a, w :: ws => laneCells a w ++ blockCells (a + 4) ws

/-- The memory with the words `ws` stored from offset `a` up: what was listed there is replaced, and the cells stay in order. -/
def Memory.writeWords (m : Memory) (a : Nat) (ws : List Word) : Memory :=
  ⟨m.cells.filter (fun c => c.1 < a) ++ blockCells a ws ++ m.cells.filter (fun c => a + 4 * ws.length ≤ c.1)⟩

/-- The byte of RAM at an offset: the one written last, or the free power-on byte (R52, U1; log 5). -/
def State.byte (s : State) (a : Nat) : Byte := (s.mem.byte? a).getD (Config.ramDraw s.ramEpoch a)

/-- `MemRead(a, 4)` of a RAM word (R12, R63). -/
def State.word (s : State) (a : Nat) : Word := s.byte (a + 3) ++ s.byte (a + 2) ++ s.byte (a + 1) ++ s.byte a

/-- `n` consecutive RAM words from offset `a` up. -/
def State.words (s : State) (a n : Nat) : List Word := (List.range n).map fun j => s.word (a + 4 * j)

/-- `MemWrite` of consecutive RAM words from offset `a` up (R12), bit for bit (R66). -/
def State.writeRam (s : State) (a : Nat) (ws : List Word) : State := { s with mem := s.mem.writeWords a ws }

/-! ## Where the words stand (R12, R14, R60) -/

/-- The offset of SAMPLE[n]. -/
def sampleOffset (n : Nat) : Nat := 0x10000 + 4 * n

/-- The offset of SPEC[k].re; SPEC[k].im is 4 bytes above. -/
def specOffset (k : Nat) : Nat := 0x20000 + 8 * k

/-- The offset of TAB[w]. -/
def tabOffset (w : Nat) : Nat := 0x100000 + 4 * w

/-- base(m) = m * (M + 2*EXTRA), the first word of row m (R14). -/
def rowBase (M m : Nat) : Nat := m * (M + 2 * extra)

/-- The offset of ROW(m, p) (R14), for p from -EXTRA up; `q` is p + EXTRA. -/
def rowOffset (M m q : Nat) : Nat := tabOffset (rowBase M m + q)

/-- SPEC[k] (R12, R47). -/
def State.specEntry (s : State) (k : Nat) : Word × Word := (s.word (specOffset k), s.word (specOffset k + 4))

/-- The two words of each entry, re first (R47). -/
def specWords (es : List (Word × Word)) : List Word := es.flatMap fun e => [e.1, e.2]

/-- The playable region ROW(m, 0 .. M-1) (R14). -/
def State.rowWords (s : State) (M m : Nat) : List Word := s.words (rowOffset M m extra) M

/-! ## Acceptance and completion -/

/-- Acceptance of the command word `c` while idle (R32): the engine enters BUSY(c). How many host accesses are performed before
its transition is a free finite number (R281, U8; log 2). -/
def State.accept (s : State) (c : Word) : State :=
  { s with
    cmd := c
    engine := .busy (Config.latency s.draws)
    draws := s.draws + 1
    done := false
    err := false
    errCode := .ok }

/-- `complete(code)` of R243: BUSY clears, DONE sets, and an error sets ERR and ERRCODE. -/
def State.complete (s : State) (code : ErrCode) : State :=
  { s with
    engine := .idle
    done := true
    err := if code = .ok then s.err else true
    errCode := if code = .ok then s.errCode else code }

/-- How every command ends (R13, R73, R240, R243, R244): on success its writes and the completion are one transition; on
`raise CmdError(code)` nothing is written but the completion fields. It is the machine's one exception entry: no handler runs, no
vector is taken and nothing is saved (R240, R260). -/
def State.finish (s : State) : Except ErrCode State → Host.Outcome State Fault Refusal
  | .ok t => .next (t.complete .ok)
  | .error code => .next (s.complete code)

/-! ## Reset -/

/-- Hard reset by the reset input (R270, R52): the RAMs hold new free contents. -/
def State.hardReset (s : State) : State := State.afterHardReset s.cfg s.draws (s.draws + 1) s.host

/-- What soft reset does to everything but an aborted command's write set (R272 (b), (c), (d)): every register takes its hard-reset
value, the engine becomes IDLE, the RAMs keep their words. -/
def State.resetRegisters (s : State) : State :=
  { State.afterHardReset s.cfg s.ramEpoch s.draws s.host with mem := s.mem, response := s.response }

end Sys2Proof.Machine
end

