-- ==== Sys2Proof/Machine/Operands.lean ====
section
/-!
DEFINITION. The operands of the commands and the checks on them, each raising the code R241 gives it. A command lists its checks
in the order of R242.
-/

namespace Sys2Proof.Machine

/-- BAD_BAND (R241): BAND >= NB. Decoding has raised it already (R94); a command's meaning repeats it so that it is total on
every band the syntax holds (log 16). -/
def checkBand (band : BitVec 5) : Except ErrCode Nat :=
  if numBands ≤ band.toNat then .error .badBand else .ok band.toNat

/-- The length check of L and of M: BAD_LENGTH if odd or below 4, then CAPACITY above the maximum (R160, R190). -/
def checkLength (len max : Nat) : Except ErrCode Nat :=
  if len % 2 = 1 ∨ len < 4 then .error .badLength
  else if max < len then .error .capacity
  else .ok len

/-- The check of L = SRC_LEN (R160, R210). -/
def checkL (s : State) : Except ErrCode Nat := checkLength s.srcLen.toNat s.cfg.srcLenMax

/-- `checkM()` (R190). -/
def checkM (s : State) : Except ErrCode Nat := checkLength s.tableSize.toNat s.cfg.tableSizeMax

/-- `checkR()` (R191): REF_RATE must not be a NaN, <= 0 or +Inf. -/
def checkR (s : State) : Except ErrCode Word :=
  if isFinite s.refRate = true ∧ 0 < scaled s.refRate then .ok s.refRate else .error .badOperand

/-- AMPLITUDE must be finite (R170, R205). -/
def checkA (s : State) : Except ErrCode Word :=
  if isFinite s.amplitude then .ok s.amplitude else .error .badOperand

/-- CUTOFF must not be a NaN (R170). -/
def checkC (s : State) : Except ErrCode Word :=
  if isNaN s.cutoff then .error .badOperand else .ok s.cutoff

/-- SAMPLE[0 .. L-1], which must be finite (R160, R210). -/
def checkSamples (s : State) (L : Nat) : Except ErrCode (List Word) :=
  let xs := s.words (sampleOffset 0) L
  if xs.all isFinite then .ok xs else .error .badOperand

/-- The harmonic lookup (R161): SPEC[k] below SPEC_LEN, else (+0, +0). -/
def State.harm (s : State) (k : Nat) : Word × Word :=
  if k < s.specLen.toNat then s.specEntry k else (posZero, posZero)

/-- INDEX as a two's-complement integer, clamped to the bands (R136). -/
def State.clampedIndex (s : State) : Nat := (clampI s.index.toInt 0 23).toNat

end Sys2Proof.Machine
end

