-- ==== Sys2Proof/Machine/Exact.lean ====
section
/-!
DEFINITION. Exact real numbers that are not rational, held so that their correct rounding (R10) can be computed: the logarithmic
index 23·ln(a/b)/ln 600 of R120, and the finite sums of integers times cosines of rational angles that R150 and R151 give. Each
has an enclosure by rationals at any precision `p` (numbers are scaled by 2^p), and is rounded by enclosing it ever more closely
until both ends round to one word; the sums also have an exact test for zero, which settles exact zeros and exact ties (R152).
-/

namespace Sys2Proof.Machine

/-- Division rounded up. -/
def ceilDiv (a b : Nat) : Nat := (a + b - 1) / b

/-- A closed interval [lo, hi] of integers, both ends scaled by 2^p. -/
structure Encl where
  lo : Int
  hi : Int
deriving DecidableEq, Repr

/-! ## Logarithms -/

/-- Encloses Σ_{j ≥ k} u^(2j+1)/(2j+1) for 0 ≤ u ≤ 1/3, with u² = num2/den2 and u^(2k+1) in [powLo, powHi] (scaled): `n` terms,
each rounded outward, and 2·u^(2(k+n)+1) above the rest. -/
def atanhTail (num2 den2 : Nat) : (n k powLo powHi : Nat) → Nat × Nat
  | 0, _, _, powHi => (0, 2 * powHi)
  | n + 1, k, powLo, powHi =>
    let rest := atanhTail num2 den2 n (k + 1) (powLo * num2 / den2) (ceilDiv (powHi * num2) den2)
    (powLo / (2 * k + 1) + rest.1, ceilDiv powHi (2 * k + 1) + rest.2)

/-- Encloses 2^p·artanh(num/den) for num/den ≤ 1/3. -/
def atanhEncl (p num den : Nat) : Nat × Nat :=
  atanhTail (num ^ 2) (den ^ 2) (p / 3 + 2) 0 (2 ^ p * num / den) (ceilDiv (2 ^ p * num) den)

/-- Encloses 2^p·ln(a/b) for a ≥ b > 0: with 2^e ≤ a/b < 2^(e+1), ln(a/b) = 2·artanh((a - b·2^e)/(a + b·2^e)) + e·ln 2, and
ln 2 = 2·artanh(1/3). -/
def lnEncl (p a b : Nat) : Nat × Nat :=
  let e := Nat.log2 (a / b)
  let m := atanhEncl p (a - b * 2 ^ e) (a + b * 2 ^ e)
  let two := atanhEncl p 1 3
  (2 * m.1 + e * (2 * two.1), 2 * m.2 + e * (2 * two.2))

/-- RN32 of 23·ln(a/b)/ln 600 for a > b > 0 (R120, R122, R133): both ends of the enclosure at precision `p` must round to one
word, else the precision is doubled. -/
def indexSearch : (fuel p a b : Nat) → Option Word
  | 0, _, _, _ => none
  | fuel + 1, p, a, b =>
    let l := lnEncl p a b
    let g := lnEncl p 600 1
    let w := rn32 ((23 * l.1 * 2 ^ 149 : Nat) : Int) g.2
    if w = rn32 ((23 * l.2 * 2 ^ 149 : Nat) : Int) g.1 then some w else indexSearch fuel (2 * p) a b

/-- RN32 of 23·ln(a/b)/ln 600 for a > b > 0, searched from 64 to 2048 bits. For a/b = f/20 with f a binary32 between F1 and FN
the real is irrational, and at least 2^-52 away from every rounding boundary, so the search answers (DEDUCED, log 13). -/
def roundIndex (a b : Nat) : Word := (indexSearch 6 64 a b).getD (Config.unroundedIndex a b)

/-! ## π and cosines -/

/-- Encloses 2^p·Σ_{j ≥ k} (-1)^(j-k)/((2j+1)·q^(2j+1)), `pow` being q^(2k+1): `n` terms, then at most the next term. -/
def atanInvTail (p q : Nat) : (n k pow : Nat) → Encl
  | 0, k, pow => ⟨0, (2 ^ p / (pow * (2 * k + 1)) + 1 : Nat)⟩
  | n + 1, k, pow =>
    let t := 2 ^ p / (pow * (2 * k + 1))
    let rest := atanInvTail p q n (k + 1) (pow * q ^ 2)
    ⟨(t : Int) - rest.hi, (t + 1 : Nat) - rest.lo⟩

/-- Encloses 2^p·arctan(1/q) for q ≥ 5. -/
def atanInvEncl (p q : Nat) : Encl := atanInvTail p q (p / 4 + 2) 0 q

/-- Encloses 2^p·π, by π = 16·arctan(1/5) - 4·arctan(1/239). -/
def piEncl (p : Nat) : Encl :=
  let a := atanInvEncl p 5
  let b := atanInvEncl p 239
  ⟨16 * a.lo - 4 * b.hi, 16 * a.hi - 4 * b.lo⟩

/-- Encloses 2^p·Σ_{j ≥ k} (-1)^(j-k)·θ^(2j)/(2j)!, with θ² in [sqLo, sqHi] and θ^(2k)/(2k)! in [aLo, aHi] (scaled): `n` terms,
then a rest of magnitude at most the next term (Taylor). -/
def cosTail (p sqLo sqHi : Nat) : (n k aLo aHi : Nat) → Encl
  | 0, _, _, aHi => ⟨-(aHi : Int), aHi⟩
  | n + 1, k, aLo, aHi =>
    let d := 2 ^ p * ((2 * k + 1) * (2 * k + 2))
    let rest := cosTail p sqLo sqHi n (k + 1) (aLo * sqLo / d) (ceilDiv (aHi * sqHi) d)
    ⟨(aLo : Int) - rest.hi, (aHi : Int) - rest.lo⟩

/-- Encloses 2^p·cos(2π·t/den) for 0 ≤ 4t ≤ den, an angle of the first quadrant. -/
def cosQuadrant (p t den : Nat) : Encl :=
  let pi := piEncl p
  let lo := pi.lo.toNat * (2 * t) / den
  let hi := ceilDiv (pi.hi.toNat * (2 * t)) den
  cosTail p (lo ^ 2 / 2 ^ p) (ceilDiv (hi ^ 2) (2 ^ p)) (p / 4 + 8) 0 (2 ^ p) (2 ^ p)

/-- Encloses 2^p·cos(2π·t/den) for any t and even den, by cos(-x) = cos x and cos(π - x) = -cos x. -/
def cosEncl (p t den : Nat) : Encl :=
  let r := min (t % den) (den - t % den)
  if 4 * r ≤ den then cosQuadrant p r den
  else
    let c := cosQuadrant p (den / 2 - r) den
    ⟨-c.hi, -c.lo⟩

/-! ## Sums of cosines -/

/-- The exact real Σ c·cos(2π·t/den) over the pairs (c, t) of `terms`, in units of 2^-149. -/
structure CosSum where
  den : Nat
  terms : List (Int × Nat)
deriving DecidableEq, Repr

/-- The sum times an integer. -/
def CosSum.scale (k : Int) (s : CosSum) : CosSum := ⟨s.den, s.terms.map fun x => (k * x.1, x.2)⟩

/-- The sum plus an integer (a cosine of angle 0). -/
def CosSum.addInt (q : Int) (s : CosSum) : CosSum := ⟨s.den, (q, 0) :: s.terms⟩

/-- Σ |c|, the L1 norm that bounds the sum. -/
def CosSum.norm (s : CosSum) : Nat := (s.terms.map fun x => x.1.natAbs).sum

/-- The coefficient of each power ζ^t, 0 ≤ t < den, of Σ c·(ζ^t + ζ^-t), which is twice the sum at ζ = e^(2πi/den). -/
def CosSum.coeffs (s : CosSum) : List Int :=
  (List.range s.den).map fun t =>
    (s.terms.map fun x =>
      (if x.2 % s.den = t then x.1 else 0) + (if (s.den - x.2 % s.den) % s.den = t then x.1 else 0)).sum

/-- Multiplication by x^d - 1 modulo x^den - 1, up to sign and a power of x. -/
def mulRootDiff (cs : List Int) (d : Nat) : List Int := List.zipWith (· - ·) cs (cs.drop d ++ cs.take d)

/-- Whether the sum is exactly 0. The polynomial of `coeffs` vanishes at the primitive den-th root ζ exactly when its product with
every x^d - 1, d a proper divisor of den, vanishes at all den-th roots of unity, that is, is 0 modulo x^den - 1. -/
def CosSum.isZero (s : CosSum) : Bool :=
  (((List.range s.den).filter fun d => 0 < d && s.den % d == 0).foldl mulRootDiff s.coeffs).all (· == 0)

/-- Encloses 2^p times the sum. -/
def CosSum.encl (p : Nat) (s : CosSum) : Encl :=
  s.terms.foldr (fun x acc =>
    let c := cosEncl p x.2 s.den
    if 0 ≤ x.1 then ⟨x.1 * c.lo + acc.lo, x.1 * c.hi + acc.hi⟩ else ⟨x.1 * c.hi + acc.lo, x.1 * c.lo + acc.hi⟩) ⟨0, 0⟩

/-- Bits 30:0 of RN32 of a sum enclosed in [lo, hi]/2^p, lo > 0, where that is settled: both ends round alike, or they round to
neighbours and the sum is exactly the midpoint between them (then the even one). -/
def CosSum.settle (s : CosSum) (p lo hi : Nat) : Option Nat :=
  let a := roundMag lo (2 ^ p)
  let b := roundMag hi (2 ^ p)
  if a = b then some a
  else if b = a + 1 ∧ ((s.scale 2).addInt (-(magOf a + magOf b : Nat))).isZero = true then
    some (if a % 2 = 0 then a else b)
  else none

/-- RN32 of the sum (R10, R152): exact zero gives +0; otherwise the sign is known once 0 is outside the enclosure, and the
magnitude once `settle` answers; else the precision is doubled. -/
def CosSum.search : (fuel p : Nat) → CosSum → Option Word
  | 0, _, _ => none
  | fuel + 1, p, s =>
    let e := s.encl p
    if 0 < e.lo then
      (match s.settle p e.lo.toNat e.hi.toNat with
        | some m => some (mkWord false m)
        | none => CosSum.search fuel (2 * p) s)
    else if e.hi < 0 then
      (match (s.scale (-1)).settle p (-e.hi).toNat (-e.lo).toNat with
        | some m => some (mkWord true m)
        | none => CosSum.search fuel (2 * p) s)
    else if s.isZero then some posZero
    else CosSum.search fuel (2 * p) s

/-- The doublings of precision after which the norm bound of log 12 has settled every sum the block can form. -/
def searchFuel : Nat := 18

/-- RN32 of the sum, searched from 64 to 2^23 bits (log 12). Terms with coefficient 0 play no part. -/
def CosSum.round (s : CosSum) : Word :=
  match s.terms.filter (fun x => x.1 != 0) with
  | [] => posZero
  | t :: ts => (CosSum.search searchFuel 64 ⟨s.den, t :: ts⟩).getD (Config.unroundedSum (t :: ts))

/-- The real number a sum of cosines stands for, in units of 2^-149. -/
def CosSum.HasValue (s : CosSum) (r : ℝ) : Prop :=
  r = (s.terms.map fun x => (x.1 : ℝ) * Real.cos (2 * Real.pi * x.2 / s.den)).sum

/-- The words R153 allows a BOUNDED transform for an output whose exact value is the sum: any where that has magnitude at least
2^127 (e), else those at a distance of at most XFORM_EPS·norm from it (b, d), of either sign where they are zero (f). -/
def CosSum.Legal (s : CosSum) (eps : Nat) (w : Word) : Prop :=
  ∃ r, s.HasValue r ∧
    (2 ^ 276 ≤ |r| ∨ (isFinite w = true ∧ |(scaled w : ℝ) - r| ≤ (Config.xformEps eps).val * s.norm))

/-- What a BOUNDED transform answers for an output whose exact value is the sum: the word drawn from the legal ones, or the nearest
word, which is legal whenever any word is (log 15). -/
def CosSum.bounded (s : CosSum) (eps : Nat) (draw : Option { w : Word // s.Legal eps w }) : Word :=
  match draw with
  | some w => w
  | none => s.round

end Sys2Proof.Machine
end

