-- ==== Sys2Proof/Machine/Rom.lean ====
section
/-!
DEFINITION. The constants of the MAP unit: the logarithmic law (R120), the SF ROM (R121), the F2I ROM (R122) and STEP_INV (R123).
-/

namespace Sys2Proof.Machine

/-- F1 = 20.0 (R5). -/
def f1 : Word := 0x41A00000#32

/-- FN = 12000.0 (R5). -/
def fN : Word := 0x463B8000#32

/-- 23.0, the index NB-1 at and above FN. -/
def index23 : Word := 0x41B80000#32

/-- The SF ROM: SF[t] = RN32(F1·b^t) for t below NB and SF[NB] = 22050.0, the values of the table of R121. Above 24 there is no
entry (R60). -/
def sf (t : Nat) : Word :=
  match t with
  | 0 => 0x41A00000#32
  | 1 => 0x41D34E01#32
  | 2 => 0x420B87BE#32
  | 3 => 0x42384570#32
  | 4 => 0x42735BCE#32
  | 5 => 0x42A0B242#32
  | 6 => 0x42D4396B#32
  | 7 => 0x430C2332#32
  | 8 => 0x433912BC#32
  | 9 => 0x43746AEF#32
  | 10 => 0x43A1654A#32
  | 11 => 0x43D525DC#32
  | 12 => 0x440CBF52#32
  | 13 => 0x4439E0EC#32
  | 14 => 0x44757B3D#32
  | 15 => 0x44A2191A#32
  | 16 => 0x44D61354#32
  | 17 => 0x450D5C21#32
  | 18 => 0x453AB003#32
  | 19 => 0x45768CBB#32
  | 20 => 0x45A2CDB2#32
  | 21 => 0x45D701D4#32
  | 22 => 0x460DF99E#32
  | 23 => 0x463B8000#32
  | 24 => 0x46AC4400#32
  | _ => posZero

/-- The F2I ROM: F2I[i] = RN32(T(x_i)), x_i = 20 + 11980·i/1023 (R122). Since x_i/F1 = (1023 + 599·i)/1023 and ln b = ln 600/23,
T(x_i) = 23·ln((1023 + 599·i)/1023)/ln 600; it is 0 at i = 0 and 23 at i = 1023. -/
def f2i (i : Nat) : Word :=
  if i = 0 then posZero
  else if 1023 ≤ i then index23
  else roundIndex (1023 + 599 * i) 1023

/-- STEP_INV = RN32(1023/11980) (R123). -/
def stepInv : Word := rn32 (1023 * 2 ^ 149) 11980

/-- RN32(T(f)) (R120, R133): 0 for a NaN or below F1, the clamp's 23 from FN up, and 0 at F1 itself, where ln 1 = 0; in between,
T(f) = 23·ln(f/20)/ln 600. -/
def exactIndex (f : Word) : Word :=
  if isNaN f || scaled f ≤ scaled f1 then posZero
  else if scaled fN ≤ scaled f then index23
  else roundIndex (scaled f).toNat (20 * 2 ^ 149)

end Sys2Proof.Machine
end

