-- ==== Sys2Proof/Machine/Bus.lean ====
section
/-!
DEFINITION. The host's accesses (R60 to R71, R285): the address map, register reads and writes, the write set of the command in
flight (R68), soft reset (R272), and what each event from outside does.
-/

namespace Sys2Proof.Machine

/-! ## The address map -/

/-- The register at an offset of the register page (R22); `none` for a reserved one. -/
def regAt (a : Nat) : Option Reg :=
  match a with
  | 0x000 => some .id
  | 0x004 => some .version
  | 0x008 => some .caps0
  | 0x00C => some .caps1
  | 0x010 => some .caps2
  | 0x014 => some .ctrl
  | 0x018 => some .irqEn
  | 0x01C => some .status
  | 0x020 => some .cmd
  | 0x024 => some .srcLen
  | 0x028 => some .tableSize
  | 0x02C => some .refRate
  | 0x030 => some .amplitude
  | 0x034 => some .cutoff
  | 0x038 => some .freq
  | 0x03C => some .index
  | 0x040 => some .specLen
  | 0x044 => some .result0
  | 0x048 => some .result1
  | 0x04C => some .resultIndex
  | 0x050 => some .harmCount
  | _ => none

/-- What a byte offset names (R60), in a block of configuration `c`; a misaligned offset has been refused before (R62(c)). -/
def locate (c : Config) (a : Nat) : Location :=
  if a < 0x1000 then
    (match regAt a with
      | some r => .reg r
      | none => .reserved)
  else if a < 0x2000 then .f2i ((a - 0x1000) / 4)
  else if a < 0x2064 then .sf ((a - 0x2000) / 4)
  else if a < 0x10000 then .unmapped
  else if a < 0x20000 then (if a < sampleOffset c.srcLenMax then .sample else .unmapped)
  else if a < 0x30000 then (if a < specOffset c.specCap then .spec else .unmapped)
  else if a < 0x100000 then .unmapped
  else if a < tabOffset c.tabWords then .tab else .unmapped

/-! ## The write set of a command (R68) -/

/-- The RAM words a command writes on success (R68), as (offset of the first, how many). For a length the command will refuse the
rows of R68 are not defined: there the model cuts them to the words that exist, and takes L/2 of an odd SRC_LEN rounded down, where
R15 gives L/2 of even values only (DESIGN CHOICE, log 6). -/
def writeRanges (s : State) (i : Instr) : List (Nat × Nat) :=
  let spec := (specOffset 0, min (2 * (s.srcLen.toNat / 2 + 1)) (2 * s.cfg.specCap))
  let M := s.tableSize.toNat
  let tab (w n : Nat) : Nat × Nat := (tabOffset w, min n (s.cfg.tabWords - w))
  let guards (m : Nat) : List (Nat × Nat) := [tab (rowBase M m) extra, tab (rowBase M m + (M + extra)) extra]
  let tables := tab 0 (numBands * (M + 2 * extra))
  match i with
  | .nop => []
  | .fftFwd => [spec]
  | .synth b => [tab (rowBase M b.toNat + extra) M]
  | .indexF => []
  | .indexX => []
  | .rangeI => []
  | .rangeF => []
  | .cutoff _ => []
  | .padRow b => guards b.toNat
  | .padAll => (List.range numBands).flatMap guards
  | .build => [tables]
  | .buildAudio => [spec, tables]

/-- The registers a command writes on success (R68), besides the completion fields; `status` stands for STATUS.TABLES_VALID. -/
def writesReg (i : Instr) (r : Reg) : Bool :=
  match i with
  | .nop => false
  | .fftFwd => r == .specLen
  | .synth _ => r == .harmCount || r == .status
  | .indexF => r == .result0 || r == .resultIndex
  | .indexX => r == .result0 || r == .resultIndex
  | .rangeI => r == .result0 || r == .result1 || r == .resultIndex
  | .rangeF => r == .result0 || r == .result1 || r == .resultIndex
  | .cutoff _ => r == .result0 || r == .result1 || r == .resultIndex
  | .padRow _ => r == .status
  | .padAll => r == .status
  | .build => r == .harmCount || r == .status
  | .buildAudio => r == .specLen || r == .harmCount || r == .status

/-- The command in flight: none while idle, and none for a word that does not decode, whose write set is empty (R68, R94). -/
def State.inFlight (s : State) : Option Instr :=
  match s.engine with
  | .idle => none
  | .busy _ => (decode s.cmd).toOption

/-- Whether a RAM offset is in the write set of the command in flight (R68, R71). -/
def State.ramInFlight (s : State) (a : Nat) : Bool :=
  match s.inFlight with
  | none => false
  | some i => (writeRanges s i).any fun r => decide (r.1 ≤ a ∧ a < r.1 + 4 * r.2)

/-- Whether a register's value is unspecified to a host now: it is in the write set of the command in flight (R71; R41 to R44 say
so of the result registers by that rule, log 7). -/
def State.regInFlight (s : State) (r : Reg) : Bool :=
  match s.inFlight with
  | none => false
  | some i => writesReg i r

/-! ## Soft reset -/

/-- The abort of the command in flight (R272(a)): every RAM word of its write set gets a free value (U2; log 6). -/
def State.abort (s : State) : State :=
  match s.inFlight with
  | none => s
  | some i =>
    (writeRanges s i).foldl
      (fun t r => t.writeRam r.1 ((List.range r.2).map fun j => Config.abortDraw s.draws (r.1 + 4 * j)))
      { s with draws := s.draws + 1 }

/-- Soft reset (R272). -/
def State.softReset (s : State) : State := s.abort.resetRegisters

/-! ## Reads -/

/-- The current value of a register (R22 to R45), RAZ fields as 0 (R67). -/
def State.readReg (s : State) (r : Reg) : Word :=
  match r with
  | .id => 0x57544D46#32
  | .version => 0x00010007#32
  | .caps0 => BitVec.ofNat 32 s.cfg.srcLenMax
  | .caps1 => BitVec.ofNat 32 s.cfg.tableSizeMax
  | .caps2 => 0x04000418#32
  | .ctrl => 0#32
  | .irqEn => s.irqEnWord
  | .status => s.statusWord
  | .cmd => s.cmd
  | .srcLen => s.srcLen
  | .tableSize => s.tableSize
  | .refRate => s.refRate
  | .amplitude => s.amplitude
  | .cutoff => s.cutoff
  | .freq => s.freq
  | .index => s.index
  | .specLen => s.specLen
  | .result0 => s.result0
  | .result1 => s.result1
  | .resultIndex => s.resultIndex
  | .harmCount => s.harmCount

/-- What a host reads from a register now. An unspecified value is free and new for each read (U3); of STATUS only the
TABLES_VALID bit can be (log 8). -/
def State.hostReadReg (s : State) (r : Reg) : Word :=
  if s.regInFlight r then
    (match r with
      | .status => s.statusWordWith ((Config.busyReadDraw s.draws).getLsbD 5)
      | _ => Config.busyReadDraw s.draws)
  else s.readReg r

/-- What a host reads from a RAM word now (R67, R71). -/
def State.hostReadRam (s : State) (a : Nat) : Word :=
  if s.ramInFlight a then Config.busyReadDraw s.draws else s.word a

/-- Whether the offset is aligned (R62(c), R64). -/
def aligned (a : Nat) : Bool := a % 4 == 0

/-- The response to a host read (R62, R67, R71). Reads have no side effects (R65). -/
def State.readResponse (s : State) (a : Nat) (narrow : Bool) : Response :=
  if narrow || !aligned a then .errorRead 0#32
  else
    match locate s.cfg a with
    | .reg r => .okayRead (s.hostReadReg r)
    | .reserved => .okayRead 0#32
    | .f2i i => .okayRead (f2i i)
    | .sf t => .okayRead (sf t)
    | .sample => .okayRead (s.hostReadRam a)
    | .spec => .okayRead (s.hostReadRam a)
    | .tab => .okayRead (s.hostReadRam a)
    | .unmapped => .errorRead 0#32

/-! ## Writes -/

/-- A write that takes effect only while idle: while busy it is dropped and BUSY_WRITE is set (R70). -/
def State.whenIdle (s t : State) : State := if s.isBusy then { s with busyWrite := true } else t

/-- The WARL value SPEC_LEN stores: min(v, SPEC_CAP), unsigned (R40). -/
def specLenValue (c : Config) (v : Word) : Word := if c.specCap < v.toNat then BitVec.ofNat 32 c.specCap else v

/-- A host write of `v` to a register (R28 to R40, R45, R69, R70). -/
def State.writeReg (s : State) (r : Reg) (v : Word) : State :=
  match r with
  | .id => s
  | .version => s
  | .caps0 => s
  | .caps1 => s
  | .caps2 => s
  | .ctrl => if v.getLsbD 0 then s.softReset else s
  | .irqEn => s.writeIrqEn v
  | .status => s.writeStatus v
  | .cmd => if s.isBusy then { s with cmdOverrun := true } else s.accept v
  | .srcLen => s.whenIdle { s with srcLen := v }
  | .tableSize => s.whenIdle { s with tableSize := v, tablesValid := false }
  | .refRate => s.whenIdle { s with refRate := v }
  | .amplitude => s.whenIdle { s with amplitude := v }
  | .cutoff => s.whenIdle { s with cutoff := v }
  | .freq => s.whenIdle { s with freq := v }
  | .index => s.whenIdle { s with index := v }
  | .specLen => s.whenIdle { s with specLen := specLenValue s.cfg v }
  | .result0 => s
  | .result1 => s
  | .resultIndex => s
  | .harmCount => s

/-- Whether a host write gets ERROR (R62): narrow or with a lane disabled, misaligned, to a ROM, or unmapped. -/
def writeRefused (c : Config) (a : Nat) (narrow : Bool) (lanes : BitVec 4) : Bool :=
  narrow || lanes != 0xF#4 || !aligned a ||
    (match locate c a with
      | .reg _ => false
      | .reserved => false
      | .f2i _ => true
      | .sf _ => true
      | .sample => false
      | .spec => false
      | .tab => false
      | .unmapped => true)

/-- The state after an OKAY host write of `v` at offset `a` (R66, R69, R70). -/
def State.hostWrite (s : State) (a : Nat) (v : Word) : State :=
  match locate s.cfg a with
  | .reg r => s.writeReg r v
  | .reserved => s
  | .f2i _ => s
  | .sf _ => s
  | .sample => s.whenIdle (s.writeRam a [v])
  | .spec => s.whenIdle (s.writeRam a [v])
  | .tab => s.whenIdle { s.writeRam a [v] with tablesValid := false }
  | .unmapped => s

/-! ## Events -/

/-- What one event from outside does (R285). A read only advances the counter of free values; the event itself has been taken off
the list by the step. -/
def State.hostEvent (s : State) (e : HostEvent) : State :=
  match e with
  | .read a narrow => { s with response := some (s.readResponse a.toNat narrow), draws := s.draws + 1 }
  | .write a narrow lanes v =>
    if writeRefused s.cfg a.toNat narrow lanes then { s with response := some .errorWrite }
    else { s.hostWrite a.toNat v with response := some .okayWrite }
  | .hardReset => s.hardReset

end Sys2Proof.Machine
end

