-- ==== Sys2Proof/Machine/Transform.lean ====
section
/-!
DEFINITION. The FWD and SYN units: the two transforms (R150 to R155), their normalisations (R156, R157), the cutoff gate (R159),
FFT_FWD (R160) and SYNTH (R170).
-/

namespace Sys2Proof.Machine

/-! ## The forward transform -/

/-- Re X_k of R150, or with `im` Im X_k, of the samples `xs`: -sin φ is cos(φ + π/2), a quarter of 2L on. -/
def forwardSum (xs : List Word) (im : Bool) (k : Nat) : CosSum :=
  let L := xs.length
  ⟨2 * L, xs.zipIdx.map fun x => (scaled x.1, 2 * (k * x.2 % L) + if im then L / 2 else 0)⟩

/-- RFFT(x)_k (R152, R153), for finite samples. A BOUNDED transform has +0 imaginary parts at 0 and L/2 (R153(c)); a correctly
rounded one has them because the exact values are 0. -/
def rfft (cfg : Config) (xs : List Word) (k : Nat) : Word × Word :=
  match cfg.xform with
  | .correctlyRounded => ((forwardSum xs false k).round, (forwardSum xs true k).round)
  | .bounded eps =>
    let part (im : Bool) := (forwardSum xs im k).bounded eps (Config.rfftDraw eps xs im k ((forwardSum xs im k).Legal eps))
    (part false, if k = 0 ∨ k = xs.length / 2 then posZero else part true)

/-- The measured harmonic profile H_0 .. H_{L/2} of the samples (R156): a multiplication by -i, exact, and by RN32(2/L). -/
def forwardProfile (cfg : Config) (xs : List Word) : List (Word × Word) :=
  let scale := rn32 (2 * 2 ^ 149) xs.length
  (List.range (xs.length / 2 + 1)).map fun k =>
    let X := rfft cfg xs k
    (mul32 X.2 scale, mul32 (neg32 X.1) scale)

/-! ## The inverse transform -/

/-- The bins that are not zero, each with its number; the others add nothing to any y_n (R151). -/
def nonzeroBins (Y : List (Word × Word)) : List ((Word × Word) × Nat) :=
  Y.zipIdx.filter fun y => scaled y.1.1 != 0 || scaled y.1.2 != 0

/-- y_n of R151 for the bins `ys` of a transform of length M: the imaginary parts of bins 0 and M/2 are discarded, and those two
count once where the others count twice. -/
def inverseSum (ys : List ((Word × Word) × Nat)) (M n : Nat) : CosSum :=
  ⟨2 * M, ys.flatMap fun y =>
    let t := 2 * (y.2 * n % M)
    if y.2 = 0 ∨ y.2 = M / 2 then [(scaled y.1.1, t)]
    else [(2 * scaled y.1.1, t), (2 * scaled y.1.2, t + M / 2)]⟩

/-- IRFFT(Y, M) (R152, R153), for finite bins Y_0 .. Y_{M/2}. -/
def irfft (cfg : Config) (Y : List (Word × Word)) (M : Nat) : List Word :=
  let ys := nonzeroBins Y
  (List.range M).map fun n =>
    match cfg.xform with
    | .correctlyRounded => (inverseSum ys M n).round
    | .bounded eps => (inverseSum ys M n).bounded eps (Config.irfftDraw eps Y M n ((inverseSum ys M n).Legal eps))

/-! ## Synthesis of one row -/

/-- The gate count K(c, M) (R159), for a cutoff that is not a NaN: compared in exact arithmetic. -/
def gateCount (c : Word) (M : Nat) : Nat :=
  if scaled c < 0 then 0 else min (M / 2) ((scaled c).toNat * M / 2 ^ 149)

/-- The bin Y_k of an included harmonic H_k (R157): a multiplication by i, exact, and by a = mul32(A, 0.5). -/
def synthBin (a : Word) (h : Word × Word) : Word × Word := (mul32 a (neg32 h.2), mul32 a h.1)

/-- The bins Y_1 .. Y_K of the included harmonics (R170). -/
def includedBins (harm : Nat → Word × Word) (A : Word) (K : Nat) : List (Word × Word) :=
  let a := mul32 A 0x3F000000#32
  (List.range K).map fun j => synthBin a (harm (j + 1))

/-- The bins Y_0 .. Y_{M/2} of R170: zero but for the included ones, K of them (K <= M/2, R159). -/
def allBins (included : List (Word × Word)) (M : Nat) : List (Word × Word) :=
  (posZero, posZero) :: (included ++ List.replicate (M / 2 - included.length) (posZero, posZero))

/-- `synthRow` (R204): the row and its gate count, or BAD_OPERAND if an included bin is not finite. -/
def synthRow (cfg : Config) (harm : Nat → Word × Word) (A c : Word) (M : Nat) : Except ErrCode (List Word × Nat) :=
  let K := gateCount c M
  let bins := includedBins harm A K
  if bins.all (fun y => isFinite y.1 && isFinite y.2) then .ok (irfft cfg (allBins bins M) M, K) else .error .badOperand

/-! ## The commands -/

/-- The writes of FFT_FWD (R160, R68). -/
def State.storeProfile (s : State) (H : List (Word × Word)) : State :=
  { s.writeRam (specOffset 0) (specWords H) with specLen := BitVec.ofNat 32 H.length }

/-- FFT_FWD up to its completion (R160). -/
def fftFwdCommand (s : State) : Except ErrCode State := do
  let L ← checkL s
  let xs ← checkSamples s L
  .ok (s.storeProfile (forwardProfile s.cfg xs))

/-- FFT_FWD (R160). -/
def execFftFwd (s : State) : Host.Outcome State Fault Refusal := s.finish (fftFwdCommand s)

/-- The writes of SYNTH m (R170, R68). -/
def State.storeRow (s : State) (M m : Nat) (row : List Word) (K : Nat) : State :=
  { s.writeRam (rowOffset M m extra) row with harmCount := BitVec.ofNat 32 K, tablesValid := false }

/-- SYNTH m up to its completion (R170). -/
def synthCommand (band : BitVec 5) (s : State) : Except ErrCode State := do
  let m ← checkBand band
  let M ← checkM s
  let A ← checkA s
  let c ← checkC s
  let (row, K) ← synthRow s.cfg s.harm A c M
  .ok (s.storeRow M m row K)

/-- SYNTH m (R170). -/
def execSynth (band : BitVec 5) (s : State) : Host.Outcome State Fault Refusal := s.finish (synthCommand band s)

end Sys2Proof.Machine
end

