-- ==== Sys2Proof/Machine/Builder.lean ====
section
/-!
DEFINITION. The CUT, PAD and SEQ units: CUTOFF (R192, R195), PAD_ROW (R200), PAD_ALL (R203), BUILD (R205), BUILD_AUDIO (R210) and
NOP (R220).
-/

namespace Sys2Proof.Machine

/-! ## CUT -/

/-- `cut(m, M, R)` (R192): the cutoff of band m and the frequency it is divided by. -/
def cut (m M : Nat) (R : Word) : Word × Word :=
  let h := mul32 0x3F000000#32 R
  let q := div32 h (float32 M)
  let fmax := sf (m + 1)
  (div32 q fmax, fmax)

/-- CUTOFF m up to its completion (R195). -/
def cutoffCommand (band : BitVec 5) (s : State) : Except ErrCode State := do
  let m ← checkBand band
  let M ← checkM s
  let R ← checkR s
  let (c, fmax) := cut m M R
  .ok { s with result0 := c, result1 := fmax, resultIndex := BitVec.ofNat 32 (gateCount c M) }

/-- CUTOFF m (R195). -/
def execCutoff (band : BitVec 5) (s : State) : Host.Outcome State Fault Refusal := s.finish (cutoffCommand band s)

/-! ## PAD -/

/-- The padding of row m (R200): the guard words before the row take its last EXTRA words, those after it its first EXTRA. What is
copied is read from `src`, the state before the command. -/
def State.padRow (s src : State) (M m : Nat) : State :=
  (s.writeRam (rowOffset M m 0) (src.words (rowOffset M m M) extra)).writeRam (rowOffset M m (M + extra))
    (src.words (rowOffset M m extra) extra)

/-- PAD_ROW m up to its completion (R200). -/
def padRowCommand (band : BitVec 5) (s : State) : Except ErrCode State := do
  let m ← checkBand band
  let M ← checkM s
  .ok { s.padRow s M m with tablesValid := false }

/-- PAD_ROW m (R200). -/
def execPadRow (band : BitVec 5) (s : State) : Host.Outcome State Fault Refusal := s.finish (padRowCommand band s)

/-- PAD_ALL up to its completion (R203). -/
def padAllCommand (s : State) : Except ErrCode State := do
  let M ← checkM s
  .ok { (List.range numBands).foldl (fun t m => t.padRow s M m) s with tablesValid := false }

/-- PAD_ALL (R203). -/
def execPadAll (s : State) : Host.Outcome State Fault Refusal := s.finish (padAllCommand s)

/-! ## SEQ -/

/-- A playable row with its guard words, ROW(m, -EXTRA .. M+EXTRA-1) (R14, R201). -/
def paddedRow (row : List Word) : List Word := row.drop (row.length - extra) ++ row ++ row.take extra

/-- The rows of a build (R205), every band computed before anything is written; the first non-finite bin raises (R242). -/
def buildRows (cfg : Config) (harm : Nat → Word × Word) (A R : Word) (M : Nat) : Except ErrCode (List (List Word)) :=
  (List.range numBands).mapM fun m => do
    let (row, _) ← synthRow cfg harm A (cut m M R).1 M
    .ok row

/-- The commit of a build and its padding pass (R205): the padded rows lie side by side from TAB[0] up (R14), and HARM_COUNT takes
the gate count of band NB-1. -/
def State.storeTables (s : State) (M : Nat) (R : Word) (rows : List (List Word)) : State :=
  { s.writeRam (tabOffset 0) (rows.flatMap paddedRow) with
    harmCount := BitVec.ofNat 32 (gateCount (cut 23 M R).1 M)
    tablesValid := true }

/-- BUILD up to its completion (R205). -/
def buildCommand (s : State) : Except ErrCode State := do
  let M ← checkM s
  let R ← checkR s
  let A ← checkA s
  let rows ← buildRows s.cfg s.harm A R M
  .ok (s.storeTables M R rows)

/-- BUILD (R205). -/
def execBuild (s : State) : Host.Outcome State Fault Refusal := s.finish (buildCommand s)

/-- The harmonics of a spectrum S[0 .. L/2], zero above (R210). -/
def harmOf (H : List (Word × Word)) (k : Nat) : Word × Word := H.getD k (posZero, posZero)

/-- BUILD_AUDIO up to its completion (R210). -/
def buildAudioCommand (s : State) : Except ErrCode State := do
  let L ← checkL s
  let M ← checkM s
  let R ← checkR s
  let A ← checkA s
  let xs ← checkSamples s L
  let H := forwardProfile s.cfg xs
  let rows ← buildRows s.cfg (harmOf H) A R M
  .ok ((s.storeProfile H).storeTables M R rows)

/-- BUILD_AUDIO (R210). -/
def execBuildAudio (s : State) : Host.Outcome State Fault Refusal := s.finish (buildAudioCommand s)

/-! ## NOP -/

/-- NOP (R220): completion only. -/
def execNop (s : State) : Host.Outcome State Fault Refusal := s.finish (.ok s)

end Sys2Proof.Machine
end

