-- ==== Sys2Proof/Machine/Map.lean ====
section
/-!
DEFINITION. The MAP unit: INDEX_F (R130), INDEX_X (R133), RANGE_I (R136), RANGE_F (R139). None raises an error.
-/

namespace Sys2Proof.Machine

/-- The interpolated index r of R130 (R123, D8). -/
def interpIndex (f : Word) : Word :=
  if isNaN f || scaled f ≤ scaled f1 then f2i 0
  else if scaled fN ≤ scaled f then f2i 1023
  else
    let p := mul32 (sub32 f f1) stepInv
    let j := (clampI (floor32 p) 0 1022).toNat
    let t := sub32 p (float32 j)
    let d := sub32 (f2i (j + 1)) (f2i j)
    add32 (f2i j) (mul32 t d)

/-- clampI(floor(r), 0, NB-1), the band of an index (R130, R133, R139). -/
def bandOfIndex (r : Word) : Nat := (clampI (floor32 r) 0 23).toNat

/-- The results of INDEX_F and INDEX_X (R130, R133). -/
def State.setIndex (s : State) (r : Word) : State :=
  { s with result0 := r, resultIndex := BitVec.ofNat 32 (bandOfIndex r) }

/-- The results of RANGE_I and RANGE_F for band `o` (R136, R139). -/
def State.setRange (s : State) (o : Nat) : State :=
  { s with result0 := sf o, result1 := sf (o + 1), resultIndex := BitVec.ofNat 32 o }

/-- INDEX_F (R130). -/
def execIndexF (s : State) : Host.Outcome State Fault Refusal :=
  s.finish (.ok (s.setIndex (interpIndex s.freq)))

/-- INDEX_X (R133). -/
def execIndexX (s : State) : Host.Outcome State Fault Refusal :=
  s.finish (.ok (s.setIndex (exactIndex s.freq)))

/-- RANGE_I (R136). -/
def execRangeI (s : State) : Host.Outcome State Fault Refusal :=
  s.finish (.ok (s.setRange s.clampedIndex))

/-- RANGE_F (R139). -/
def execRangeF (s : State) : Host.Outcome State Fault Refusal :=
  s.finish (.ok (s.setRange (bandOfIndex (interpIndex s.freq))))

end Sys2Proof.Machine
end

