-- ==== Sys2Proof/Machine/Dispatch.lean ====
section
/-!
DEFINITION. One command performed by the engine (R50, R73): one arm for each command of R93.
-/

namespace Sys2Proof.Machine

def exec (i : Instr) (s : State) : Host.Outcome State Fault Refusal :=
  match i with
  | .nop => Sys2Proof.Machine.execNop s
  | .fftFwd => Sys2Proof.Machine.execFftFwd s
  | .synth band => Sys2Proof.Machine.execSynth band s
  | .indexF => Sys2Proof.Machine.execIndexF s
  | .indexX => Sys2Proof.Machine.execIndexX s
  | .rangeI => Sys2Proof.Machine.execRangeI s
  | .rangeF => Sys2Proof.Machine.execRangeF s
  | .cutoff band => Sys2Proof.Machine.execCutoff band s
  | .padRow band => Sys2Proof.Machine.execPadRow band s
  | .padAll => Sys2Proof.Machine.execPadAll s
  | .build => Sys2Proof.Machine.execBuild s
  | .buildAudio => Sys2Proof.Machine.execBuildAudio s

end Sys2Proof.Machine
end

