-- ==== Sys2Proof/Machine/Engine.lean ====
section
/-!
DEFINITION. The engine's one transition (R73), which agent of the system moves (R285, R281), and how a command word is placed so
that the engine performs it next.
-/

namespace Sys2Proof.Machine

/-- The engine's transition (R73): the accepted word is decoded first (R94, R242), then its command performed. -/
def engineStep (s : State) : Host.Outcome State Fault Refusal :=
  match decode s.cmd with
  | .ok i => exec i s
  | .error code => s.finish (.error code)

/-- One step of the whole system: one event from outside, or the engine's transition (R285). Idle, the next event is performed, and
with none to come nothing happens (R267). Busy, as many events as the engine still leaves are performed first (R281; log 2), then
the engine's transition; with no event to come the engine moves. -/
def systemStep (s : State) : Host.Outcome State Fault Refusal :=
  match s.engine, s.host with
  | .idle, [] => .next s
  | .idle, e :: es => .next (State.hostEvent { s with host := es } e)
  | .busy _, [] => engineStep s
  | .busy 0, _ :: _ => engineStep s
  | .busy (n + 1), e :: es => .next (State.hostEvent { s with host := es, engine := .busy n } e)

/-- `s` with the command word `c` accepted (R32) and no host access left before the engine's transition (log 3). -/
def State.placeCommand (s : State) (c : Word) : State :=
  { s with cmd := c, engine := .busy 0, done := false, err := false, errCode := .ok }

end Sys2Proof.Machine
end

