-- ==== Sys2Proof/Machine/Step.lean ====
section
/-!
DEFINITION. One step of the whole system (R285), and the state in which the engine performs a given command word next.
-/

namespace Sys2Proof.Machine

/-- One step: one event from outside, or the engine's one transition (R285). -/
def step (s : State) : Host.Outcome State Fault Refusal := systemStep s

/-- `s` with the command word of the `nbits` bits `w` accepted (R32) and the engine's transition next (log 3). -/
def State.withFetchWord (s : State) (nbits w : Nat) : State := s.placeCommand (BitVec.ofNat 32 (w % 2 ^ nbits))

end Sys2Proof.Machine
end

