-- ==== Sys2Proof/Safety.lean ====
section
/-!
DEFINITION. The terms the claims use: when a table is padded (R201), the invariant of every reachable state, the reads a claim is
stated through, and the real-number meaning of rounding (R10) and of the exact sums and logarithms (R120, R150, R151).
-/

namespace Sys2Proof.Machine

/-- The offset is one of the RAM words of R60 in a block of configuration `c`. -/
abbrev ramOffset (c : Config) (a : Nat) : Prop :=
  (0x10000 ≤ a ∧ a < sampleOffset c.srcLenMax) ∨ (0x20000 ≤ a ∧ a < specOffset c.specCap) ∨
  (0x100000 ≤ a ∧ a < tabOffset c.tabWords)

/-- ROW(m, p) at table size M (R14), with `q` for p + EXTRA. -/
def State.rowWord (s : State) (M m q : Nat) : Word := s.word (rowOffset M m q)

/-- The wrap-padding of row m (R201): ROW(m, M+k) = ROW(m, k) and ROW(m, -1-k) = ROW(m, M-1-k) for k in [0, EXTRA). -/
abbrev State.rowPadded (s : State) (M m : Nat) : Prop :=
  ∀ k < extra, s.rowWord M m (extra + M + k) = s.rowWord M m (extra + k) ∧
    s.rowWord M m (extra - 1 - k) = s.rowWord M m (extra + M - 1 - k)

/-- The length is one that R160 and R190 accept: even, at least 4, at most the capacity. -/
abbrev legalLength (len max : Nat) : Prop := len % 2 = 0 ∧ 4 ≤ len ∧ len ≤ max

/-- What holds of every reachable state. -/
structure State.Inv (s : State) : Prop where
  /-- The parameters meet the constraints of R6. -/
  config : s.cfg.wf
  /-- The memory keeps its canonical form. -/
  memory : s.mem.wf
  /-- Only RAM words are listed (R60). -/
  listed : ∀ c ∈ s.mem.cells, ramOffset s.cfg c.1
  /-- ERR is set exactly when ERRCODE is not 0x00 (R31, R32, R243). -/
  error : s.err = true ↔ s.errCode ≠ .ok
  /-- SPEC_LEN holds a legal value (R40). -/
  specLen : s.specLen.toNat ≤ s.cfg.specCap
  /-- While a command is in flight, DONE and ERR are 0 (R32, R243). -/
  inFlight : s.isBusy = true → s.done = false ∧ s.err = false
  /-- Every integer a command writes is in [0, 2^14) (R15). -/
  small : s.resultIndex.toNat < 2 ^ 14 ∧ s.harmCount.toNat < 2 ^ 14
  /-- TABLES_VALID: the table size is legal and every row is padded (R53, R201, R287). -/
  tables : s.tablesValid = true →
    legalLength s.tableSize.toNat s.cfg.tableSizeMax ∧ ∀ m < numBands, s.rowPadded s.tableSize.toNat m

/-- Bits 30:0 of the binary32 value nearest to `x` ≥ 0, in units of 2^-149, ties to even (R10). Infinity (0x7F800000) stands for
2^128, so that from 2^128·(1 - 2^-25) up it is the nearest. -/
def IsNearestMag (x : ℝ) (e : Nat) : Prop :=
  e ≤ 0x7F800000 ∧ ∀ e' ≤ 0x7F800000, e' ≠ e →
    |(magOf e : ℝ) - x| < |(magOf e' : ℝ) - x| ∨ (|(magOf e : ℝ) - x| = |(magOf e' : ℝ) - x| ∧ e % 2 = 0)

/-- `w` is RN32 of the real `r`, in units of 2^-149 (R10). -/
def IsRn32 (r : ℝ) (w : Word) : Prop :=
  ∃ e, IsNearestMag |r| e ∧ (r < 0 → w = mkWord true e) ∧ (0 ≤ r → w = mkWord false e)

/-- The search of log 12 answers for this sum, or has nothing to do: no term has a nonzero coefficient. -/
def CosSum.settled (s : CosSum) : Prop :=
  let ts := s.terms.filter fun x => x.1 != 0
  ts = [] ∨ (CosSum.search searchFuel 64 ⟨s.den, ts⟩).isSome = true

/-- The word `w` meets the bound `b` on its distance from the real `r`, both in units of 2^-149 (R153 (b), (d)), unless |r| is at
least 2^127 (e) or no binary32 value lies within the bound. -/
def IsWithin (b r : ℝ) (w : Word) : Prop :=
  |r| < 2 ^ 276 → (∃ v : Word, isFinite v = true ∧ |(scaled v : ℝ) - r| ≤ b) →
    isFinite w = true ∧ |(scaled w : ℝ) - r| ≤ b

/-- T(f) of R120 for a frequency between F1 and FN: ln(f/F1)/ln(b), with ln b = ln(600)/23. -/
def IsBandIndex (f : Word) (t : ℝ) : Prop :=
  t = Real.log ((scaled f : ℝ) / 2 ^ 149 / 20) / (Real.log 600 / 23)

/-- The state is `s` but for what completion writes (R243) with code `code`. -/
def State.completedWith (s : State) (code : ErrCode) : State :=
  { s with engine := .idle, done := true, err := true, errCode := code }

end Sys2Proof.Machine
end

