-- ==== Sys2Proof/Certificates/Slice0/Obligations.lean ====
section
/-!
DEFINITION. The statements for the provers. Where a statement gives a whole next state as `{ s with … }`, every field it does not
name is unchanged: that is its frame. Where memory changes, the frame of memory is said byte by byte.
-/

open Sys2Proof Sys2Proof.Machine

/-! ## Encoding -/

/-- R93, R94: decoding the word of a well-formed command gives the command, at every band. -/
def Obligations.DecodeOfEncode : Prop :=
  ∀ i : Instr, i.wf → decode (encode i) = .ok i

/-- R90, R93, R95: a word that decodes is the word of the command it decodes to, which is well formed; no bit is ignored. -/
def Obligations.EncodeOfDecode : Prop :=
  ∀ (w : Word) (i : Instr), decode w = .ok i → i.wf ∧ encode i = w

/-- R94: which code decoding raises, in its order, over OP = c mod 2^8, BAND = c/2^8 mod 2^5 and RSV = c/2^13; which command it
answers otherwise; and that a decode failure is what the engine's transition completes with. -/
def Obligations.DecodeFollowsItsChecks : Prop :=
  ∀ c : Word,
    let op := c.toNat % 2 ^ 8
    let b := c.toNat / 2 ^ 8 % 2 ^ 5
    let rsv := c.toNat / 2 ^ 13
    let hasBand := op = 0x02 ∨ op = 0x07 ∨ op = 0x08
    (0x0B < op → decode c = .error .illegalCmd) ∧
    (op ≤ 0x0B → rsv ≠ 0 → decode c = .error .reservedBits) ∧
    (op ≤ 0x0B → rsv = 0 → ¬ hasBand → b ≠ 0 → decode c = .error .reservedBits) ∧
    (rsv = 0 → hasBand → 24 ≤ b → decode c = .error .badBand) ∧
    (op ≤ 0x0B → rsv = 0 → (hasBand → b < 24) → (¬ hasBand → b = 0) →
      ∃ i : Instr, decode c = .ok i ∧ i.opcode.toNat = op ∧ i.bandField.toNat = b) ∧
    (∀ (s : State) (code : ErrCode), s.cmd = c → decode c = .error code → engineStep s = .next (s.completedWith code))

/-- R93: words written out from the opcode map, and what they stand for. -/
def Obligations.SpecWordsDecode : Prop :=
  decode 0x00000000#32 = .ok .nop ∧ decode 0x00000001#32 = .ok .fftFwd ∧ decode 0x00000502#32 = .ok (.synth 5) ∧
  decode 0x00001702#32 = .ok (.synth 23) ∧ decode 0x00000003#32 = .ok .indexF ∧ decode 0x00000006#32 = .ok .rangeF ∧
  decode 0x00001607#32 = .ok (.cutoff 22) ∧ decode 0x00000508#32 = .ok (.padRow 5) ∧ decode 0x0000000A#32 = .ok .build ∧
  decode 0x00001802#32 = .error .badBand ∧ decode 0x00002000#32 = .error .reservedBits

/-! ## Steps, completion, errors -/

/-- R73, R94: when the engine's transition is next and the accepted word decodes, the step is the command, which is well formed;
where it does not decode, the step completes with the code. In every other state the step is the host's next event, taken off its
list, or nothing when the block is idle (R267) and none is to come. Whose step is next is the model's choice (DESIGN CHOICE) within
R281 and R285: the host as a list of events is log 1, the count of accesses left before the engine moves is log 2, and an idle block
without events staying as it is is log 3. -/
def Obligations.StepRunsDecodedCommand : Prop :=
  ∀ s : State,
    (∀ n : Nat, s.engine = .busy n → n = 0 ∨ s.host = [] →
      (∀ i : Instr, decode s.cmd = .ok i → i.wf ∧ step s = exec i s) ∧
      (∀ code : ErrCode, decode s.cmd = .error code → step s = .next (s.completedWith code))) ∧
    (∀ (n : Nat) (e : HostEvent) (es : List HostEvent), s.engine = .busy (n + 1) → s.host = e :: es →
      step s = .next (State.hostEvent { s with engine := .busy n, host := es } e)) ∧
    (∀ (e : HostEvent) (es : List HostEvent), s.engine = .idle → s.host = e :: es →
      step s = .next (State.hostEvent { s with host := es } e)) ∧
    (s.engine = .idle → s.host = [] → step s = .next s)

/-- Nothing stops the machine: every state has a next state, of the same configuration (R273). That no step ends in a fault or a
refusal is the model's inference from R240, R245 and R260 (log 19, DEDUCED), and that an idle block without events steps to itself
is the model's choice (log 3). -/
def Obligations.EveryStateSteps : Prop :=
  ∀ s : State, ∃ t, step s = .next t ∧ t.cfg = s.cfg

/-- R243, R245: every command, in every state, completes in the same transition: BUSY clears, DONE sets, and from the cleared
ERR and ERRCODE of an acceptance either both stay clear or both are set; CMD_OVERRUN, BUSY_WRITE and IRQ_EN never change. -/
def Obligations.EveryCommandCompletes : Prop :=
  ∀ (i : Instr) (s : State), s.err = false → s.errCode = .ok →
    ∃ t, exec i s = .next t ∧ t.isBusy = false ∧ t.done = true ∧ (t.err = true ↔ t.errCode ≠ .ok) ∧
      t.cmdOverrun = s.cmdOverrun ∧ t.busyWrite = s.busyWrite ∧ t.doneIe = s.doneIe ∧ t.errIe = s.errIe

/-- R244: an engine transition that completes with an error leaves everything as it was, but for the completion fields. -/
def Obligations.ErrorsArePrecise : Prop :=
  ∀ s t : State, s.errCode = .ok → engineStep s = .next t → t.errCode ≠ .ok → t = s.completedWith t.errCode

/-- R68: what each command leaves unchanged: every byte outside the words of its row of the table of R68, every register but STATUS
that its row does not name, TABLES_VALID unless its row names it, and everything outside the block. -/
def Obligations.CommandsWriteOnlyTheirWriteSet : Prop :=
  ∀ (i : Instr) (s t : State), exec i s = .next t →
    (∀ a, (∀ r ∈ writeRanges s i, a < r.1 ∨ r.1 + 4 * r.2 ≤ a) → t.byte a = s.byte a) ∧
    (∀ r : Reg, r ≠ .status → writesReg i r = false → t.readReg r = s.readReg r) ∧
    (writesReg i .status = false → t.tablesValid = s.tablesValid) ∧
    t.cmdOverrun = s.cmdOverrun ∧ t.busyWrite = s.busyWrite ∧
    t.cfg = s.cfg ∧ t.host = s.host ∧ t.draws = s.draws ∧ t.ramEpoch = s.ramEpoch ∧ t.response = s.response

/-- The invariant of `State.Inv` is kept by every step: events from outside, acceptance, resets and every command (R6, R15, R31,
R40, R53, R60, R201, R243, R287). -/
def Obligations.StepKeepsInvariant : Prop :=
  ∀ s t : State, s.Inv → step s = .next t → t.Inv

/-- The state after hard reset (R270) meets the invariant. -/
def Obligations.InvariantAtReset : Prop := State.reset.Inv

/-- R53: what sets and what clears STATUS.TABLES_VALID, over every command, every engine transition whose word does not decode, and
every event. -/
def Obligations.TablesValidSetAndCleared : Prop :=
  (∀ (i : Instr) (s t : State), s.errCode = .ok → exec i s = .next t →
    (t.errCode ≠ .ok → t.tablesValid = s.tablesValid) ∧
    (t.errCode = .ok → i = .build ∨ i = .buildAudio → t.tablesValid = true) ∧
    (t.errCode = .ok → (∃ b, i = .synth b ∨ i = .padRow b) ∨ i = .padAll → t.tablesValid = false) ∧
    (t.errCode = .ok → i = .nop ∨ i = .fftFwd ∨ i = .indexF ∨ i = .indexX ∨ i = .rangeI ∨ i = .rangeF ∨ (∃ b, i = .cutoff b) →
      t.tablesValid = s.tablesValid)) ∧
  (∀ (s t : State) (code : ErrCode), decode s.cmd = .error code → engineStep s = .next t →
    t.errCode = code ∧ code ≠ .ok ∧ t.tablesValid = s.tablesValid) ∧
  (∀ s : State, (s.hostEvent .hardReset).tablesValid = false) ∧
  (∀ (s : State) (a : BitVec 21) (n : Bool), (s.hostEvent (.read a n)).tablesValid = s.tablesValid) ∧
  (∀ (s : State) (a : BitVec 21) (n : Bool) (l : BitVec 4) (v : Word),
    let t := s.hostEvent (.write a n l v)
    let okay := writeRefused s.cfg a.toNat n l = false
    let softReset := a = 0x14#21 ∧ v.getLsbD 0 = true
    let clears := s.isBusy = false ∧ (a = 0x28#21 ∨ locate s.cfg a.toNat = .tab)
    (okay ∧ (softReset ∨ clears) → t.tablesValid = false) ∧
    (¬ (okay ∧ (softReset ∨ clears)) → t.tablesValid = s.tablesValid))

/-! ## Arithmetic -/

/-- R10: RN32 gives the nearest binary32 value, ties to even, subnormals kept, infinity from 2^128·(1 - 2^-25) up, +0 for 0. That a
negative real that rounds to zero gives -0 is the model's inference (log 10, DEDUCED). -/
def Obligations.RationalsRoundToNearestEven : Prop :=
  ∀ (num : Int) (den : Nat), 0 < den → IsRn32 ((num : ℝ) / den) (rn32 num den)

/-- R10: on finite operands add32, sub32, mul32 and div32 are RN32 of the exact result wherever that is not zero, and division by a
nonzero word. That a negative product or quotient that rounds to zero gives -0 is the model's inference (log 10, DEDUCED). On other
operands, by the IEEE rules: a NaN operand or an invalid operation gives a NaN, an infinite addend is the sum, and a product or
quotient that is infinite, division of a nonzero word by zero among them, has the exclusive or of the signs. -/
def Obligations.OperationsRoundOnce : Prop :=
  ∀ a b : Word,
    let inf := if signBit a = signBit b then 0x7F800000#32 else 0xFF800000#32
    (isFinite a = true → isFinite b = true →
      (scaled a + scaled b ≠ 0 → IsRn32 ((scaled a : ℝ) + scaled b) (add32 a b)) ∧
      (scaled a - scaled b ≠ 0 → IsRn32 ((scaled a : ℝ) - scaled b) (sub32 a b)) ∧
      (scaled a * scaled b ≠ 0 → IsRn32 ((scaled a : ℝ) * scaled b / 2 ^ 149) (mul32 a b)) ∧
      (scaled a ≠ 0 → scaled b ≠ 0 → IsRn32 ((scaled a : ℝ) / scaled b * 2 ^ 149) (div32 a b)) ∧
      (scaled a ≠ 0 → scaled b = 0 → div32 a b = inf) ∧
      (scaled a = 0 → scaled b = 0 → isNaN (div32 a b) = true)) ∧
    (isNaN a = true ∨ isNaN b = true →
      isNaN (add32 a b) = true ∧ isNaN (sub32 a b) = true ∧ isNaN (mul32 a b) = true ∧ isNaN (div32 a b) = true) ∧
    (isInf a = true → isFinite b = true →
      add32 a b = a ∧ sub32 a b = a ∧ div32 a b = inf ∧
      (scaled b ≠ 0 → mul32 a b = inf) ∧ (scaled b = 0 → isNaN (mul32 a b) = true)) ∧
    (isFinite a = true → isInf b = true →
      add32 a b = b ∧ sub32 a b = neg32 b ∧
      (scaled a ≠ 0 → mul32 a b = inf) ∧ (scaled a = 0 → isNaN (mul32 a b) = true)) ∧
    (isInf a = true → isInf b = true →
      mul32 a b = inf ∧ isNaN (div32 a b) = true ∧
      (signBit a = signBit b → add32 a b = a ∧ isNaN (sub32 a b) = true) ∧
      (signBit a ≠ signBit b → isNaN (add32 a b) = true ∧ sub32 a b = a))

/-- R10: the IEEE signs of the results whose exact value is zero, on finite operands and an infinite divisor. A product or a
quotient has the exclusive or of the signs, whether one operand is zero or the divisor infinite; a sum or a difference that cancels
is +0, and of two zeros it is -0 only where both addends are negative. And neg32 flips bit 31 only, of any word. -/
def Obligations.ZeroResultsHaveIeeeSigns : Prop :=
  (∀ (x : Word), ∀ k < 32, (neg32 x).getLsbD k = (if k = 31 then !x.getLsbD k else x.getLsbD k)) ∧
  ∀ x y : Word, isFinite x = true →
    let xorZero := if signBit x = signBit y then 0x00000000#32 else 0x80000000#32
    (isFinite y = true → scaled x = 0 ∨ scaled y = 0 → mul32 x y = xorZero) ∧
    (isFinite y = true → scaled x = 0 → scaled y ≠ 0 → div32 x y = xorZero) ∧
    (isInf y = true → div32 x y = xorZero) ∧
    (isFinite y = true → scaled x ≠ 0 → scaled x + scaled y = 0 → add32 x y = 0x00000000#32) ∧
    (isFinite y = true → scaled x ≠ 0 → scaled x = scaled y → sub32 x y = 0x00000000#32) ∧
    (isFinite y = true → scaled x = 0 → scaled y = 0 →
      add32 x y = (if signBit x = true ∧ signBit y = true then 0x80000000#32 else 0x00000000#32) ∧
      sub32 x y = (if signBit x = true ∧ signBit y = false then 0x80000000#32 else 0x00000000#32))

/-! ## MAP -/

/-- R136: RANGE_I, the word 0x00000005, clamps INDEX as a two's-complement integer and writes the band's range; nothing else
changes. -/
def Obligations.RangeIResult : Prop :=
  decode 0x00000005#32 = .ok .rangeI ∧
  ∀ (s : State) (o : Nat),
    (s.index.toInt ≤ 0 ∧ o = 0) ∨ (0 < s.index.toInt ∧ s.index.toInt < 23 ∧ s.index.toInt = o) ∨ (23 ≤ s.index.toInt ∧ o = 23) →
    exec .rangeI s = .next { s with
      engine := .idle, done := true, result0 := sf o, result1 := sf (o + 1), resultIndex := BitVec.ofNat 32 o }

/-- R137: the ranges of consecutive bands meet bit for bit, and each has min < max. -/
def Obligations.RangesAreContiguous : Prop :=
  (∀ (s s' : State) (i : Nat), i ≤ 22 → s.index = BitVec.ofNat 32 i → s'.index = BitVec.ofNat 32 (i + 1) →
    ∃ t t', exec .rangeI s = .next t ∧ exec .rangeI s' = .next t' ∧ t.result1 = t'.result0) ∧
  (∀ s : State, ∃ t, exec .rangeI s = .next t ∧ scaled t.result0 < scaled t.result1)

/-- R130: the index INDEX_F writes, in its three cases; RESULT_INDEX is its floor clamped; nothing else changes. -/
def Obligations.IndexFResult : Prop :=
  ∀ (s : State) (r : Word),
    ((isNaN s.freq = true ∨ scaled s.freq ≤ scaled 0x41A00000#32) ∧ r = 0x00000000#32) ∨
    (isNaN s.freq = false ∧ scaled 0x463B8000#32 ≤ scaled s.freq ∧ r = 0x41B80000#32) ∨
    (isNaN s.freq = false ∧ scaled 0x41A00000#32 < scaled s.freq ∧ scaled s.freq < scaled 0x463B8000#32 ∧
      ∃ (p : Word) (j : Nat), p = mul32 (sub32 s.freq 0x41A00000#32) 0x3DAEE22B#32 ∧
        (j : Int) = max 0 (min (scaled p / 2 ^ 149) 1022) ∧
        r = add32 (f2i j) (mul32 (sub32 p (float32 j)) (sub32 (f2i (j + 1)) (f2i j)))) →
    ∃ o : Nat, (o : Int) = max 0 (min (scaled r / 2 ^ 149) 23) ∧
      exec .indexF s = .next { s with engine := .idle, done := true, result0 := r, resultIndex := BitVec.ofNat 32 o }

/-- R139: RANGE_F, the word 0x00000006, writes the range of the band that INDEX_F would write to RESULT_INDEX; nothing else
changes. -/
def Obligations.RangeFUsesIndexFBand : Prop :=
  decode 0x00000006#32 = .ok .rangeF ∧
  ∀ s : State, ∃ t, exec .indexF s = .next t ∧ t.resultIndex.toNat ≤ 23 ∧
    exec .rangeF s = .next { s with
      engine := .idle, done := true, result0 := sf t.resultIndex.toNat, result1 := sf (t.resultIndex.toNat + 1),
      resultIndex := t.resultIndex }

/-- R133: INDEX_X in its three cases. Between F1 and FN it is the word the search answers; the free word of log 13 stands only where
the search answers none (the model's choice). Nothing else changes. -/
def Obligations.IndexXResult : Prop :=
  ∀ (s : State) (r : Word),
    ((isNaN s.freq = true ∨ scaled s.freq ≤ scaled 0x41A00000#32) ∧ r = 0x00000000#32) ∨
    (isNaN s.freq = false ∧ scaled 0x463B8000#32 ≤ scaled s.freq ∧ r = 0x41B80000#32) ∨
    (isNaN s.freq = false ∧ scaled 0x41A00000#32 < scaled s.freq ∧ scaled s.freq < scaled 0x463B8000#32 ∧
      r = (indexSearch 6 64 (scaled s.freq).toNat (20 * 2 ^ 149)).getD
        (Config.unroundedIndex (scaled s.freq).toNat (20 * 2 ^ 149))) →
    ∃ o : Nat, (o : Int) = max 0 (min (scaled r / 2 ^ 149) 23) ∧
      exec .indexX s = .next { s with engine := .idle, done := true, result0 := r, resultIndex := BitVec.ofNat 32 o }

/-- R134: INDEX_F and INDEX_X give exactly 0.0 at F1 and 23.0 at FN. -/
def Obligations.IndexEndsAreExact : Prop :=
  ∀ s : State,
    (s.freq = 0x41A00000#32 → ∃ t u, exec .indexF s = .next t ∧ exec .indexX s = .next u ∧
      t.result0 = 0x00000000#32 ∧ u.result0 = 0x00000000#32) ∧
    (s.freq = 0x463B8000#32 → ∃ t u, exec .indexF s = .next t ∧ exec .indexX s = .next u ∧
      t.result0 = 0x41B80000#32 ∧ u.result0 = 0x41B80000#32)

/-- The enclosure of a logarithm holds it, at every precision (the computation behind R120; log 13). -/
def Obligations.LogarithmIsEnclosed : Prop :=
  ∀ p a b : Nat, 0 < b → b ≤ a →
    ((lnEncl p a b).1 : ℝ) ≤ 2 ^ p * Real.log ((a : ℝ) / b) ∧ 2 ^ p * Real.log ((a : ℝ) / b) ≤ ((lnEncl p a b).2 : ℝ)

/-- R120, R133: for a frequency strictly between F1 and FN, the index INDEX_X writes is the real T(f) = ln(f/F1)/ln(b) correctly
rounded, wherever the search answers. -/
def Obligations.IndexXIsTheRoundedLaw : Prop :=
  ∀ (s : State) (w : Word) (T : ℝ), isNaN s.freq = false → scaled 0x41A00000#32 < scaled s.freq →
    scaled s.freq < scaled 0x463B8000#32 → IsBandIndex s.freq T →
    indexSearch 6 64 (scaled s.freq).toNat (20 * 2 ^ 149) = some w →
    IsRn32 (T * 2 ^ 149) w ∧ ∃ t, exec .indexX s = .next t ∧ t.result0 = w

/-- R121: each entry of the SF ROM below the last is the real F1·b^t = 20·600^(t/23) correctly rounded; the last is 22050.0, and
F1 and FN are exact. R122: each entry of the F2I ROM is T(x_i) = ln(x_i/F1)/ln(b) correctly rounded, at x_i = 20 + 11980·i/1023, and
its ends are 0.0 and 23.0. -/
def Obligations.BandStartsAreRounded : Prop :=
  (∀ t : Nat, t < 24 → IsRn32 (20 * (600 : ℝ) ^ ((t : ℝ) / 23) * 2 ^ 149) (sf t)) ∧
  scaled (sf 24) = 22050 * 2 ^ 149 ∧ scaled (sf 0) = 20 * 2 ^ 149 ∧ scaled (sf 23) = 12000 * 2 ^ 149 ∧
  (∀ i : Nat, i < 1024 →
    let x : ℝ := 20 + 11980 * i / 1023
    IsRn32 (Real.log (x / 20) / (Real.log 600 / 23) * 2 ^ 149) (f2i i)) ∧
  f2i 0 = 0x00000000#32 ∧ f2i 1023 = 0x41B80000#32

/-! ## FWD and SYN -/

/-- The enclosure of a cosine holds it, at every precision (the computation behind R150 to R152; log 12). -/
def Obligations.CosineIsEnclosed : Prop :=
  ∀ p t den : Nat, 0 < den → den % 2 = 0 →
    ((cosEncl p t den).lo : ℝ) ≤ 2 ^ p * Real.cos (2 * Real.pi * t / den) ∧
      2 ^ p * Real.cos (2 * Real.pi * t / den) ≤ ((cosEncl p t den).hi : ℝ)

/-- The exact test for zero is right when it answers yes (R10, R152; log 12). -/
def Obligations.ZeroTestIsSound : Prop :=
  ∀ s : CosSum, 0 < s.den → s.isZero = true → s.HasValue 0

/-- R10, R152: a sum of cosines rounded by the search is correctly rounded, exact zeros and exact ties included, wherever the search
answers (log 12). That a negative sum that rounds to zero gives -0 is the model's inference (log 10, DEDUCED). -/
def Obligations.SumsAreCorrectlyRounded : Prop :=
  ∀ (s : CosSum) (fuel p : Nat) (w : Word) (r : ℝ), 0 < s.den → s.den % 2 = 0 → s.HasValue r →
    CosSum.search fuel p s = some w → IsRn32 r w

/-- R150: the two sums of a forward output are the real and the imaginary part of X_k = Σ x_n·e^(-2πi·k·n/L). R152: where correct
rounding is configured, RFFT(x)_k is (RN32(Re X_k), RN32(Im X_k)). R153 (b), (c): where BOUNDED is, each component is within
XFORM_EPS·Σ|x_n| of it and the imaginary ones at 0 and L/2 are +0. Both wherever the search answers (log 12); the sign of a nonzero
value rounded to zero is log 10's (DEDUCED), and the nearest word for a bound no word meets is log 15's (DESIGN CHOICE). -/
def Obligations.ForwardSumsAreTheTransform : Prop :=
  ∀ (cfg : Config) (xs : List Word) (k : Nat), 0 < xs.length → xs.length % 2 = 0 →
    let re : ℝ := (xs.zipIdx.map fun x => (scaled x.1 : ℝ) * Real.cos (2 * Real.pi * k * x.2 / xs.length)).sum
    let im : ℝ := -(xs.zipIdx.map fun x => (scaled x.1 : ℝ) * Real.sin (2 * Real.pi * k * x.2 / xs.length)).sum
    let size : ℝ := (xs.map fun x => |(scaled x : ℝ)|).sum
    (forwardSum xs false k).HasValue re ∧ (forwardSum xs true k).HasValue im ∧
    (cfg.xform = .correctlyRounded →
      ((forwardSum xs false k).settled → IsRn32 re (rfft cfg xs k).1) ∧
      ((forwardSum xs true k).settled → IsRn32 im (rfft cfg xs k).2)) ∧
    (∀ eps : Nat, cfg.xform = .bounded eps →
      let ε := (Config.xformEps eps).val
      ((forwardSum xs false k).settled → IsWithin (ε * size) re (rfft cfg xs k).1) ∧
      ((forwardSum xs true k).settled → IsWithin (ε * size) im (rfft cfg xs k).2) ∧
      (k = 0 ∨ k = xs.length / 2 → (rfft cfg xs k).2 = 0x00000000#32))

/-- R151: the sum of an inverse output is y_n: bins 0 and M/2 once, real parts only, the others twice. R152: where correct rounding
is configured, IRFFT(Y, M)_n is RN32(y_n). R153 (d): where BOUNDED is, it is within XFORM_EPS times the norm of the bins. Both
wherever the search answers (log 12); the sign of a nonzero value rounded to zero is log 10's (DEDUCED), and the nearest word for a
bound no word meets is log 15's (DESIGN CHOICE). -/
def Obligations.InverseSumIsTheTransform : Prop :=
  ∀ (cfg : Config) (Y : List (Word × Word)) (M n : Nat), M % 2 = 0 → 4 ≤ M → Y.length = M / 2 + 1 →
    let re (k : Nat) : ℝ := scaled (Y.getD k (posZero, posZero)).1
    let im (k : Nat) : ℝ := scaled (Y.getD k (posZero, posZero)).2
    let y : ℝ := re 0 + re (M / 2) * (-1) ^ n +
      2 * ((List.range (M / 2 - 1)).map fun j =>
        re (j + 1) * Real.cos (2 * Real.pi * (j + 1 : Nat) * n / M) -
          im (j + 1) * Real.sin (2 * Real.pi * (j + 1 : Nat) * n / M)).sum
    let size : ℝ := |re 0| + |re (M / 2)| + 2 * ((List.range (M / 2 - 1)).map fun j => |re (j + 1)| + |im (j + 1)|).sum
    let sum := inverseSum (nonzeroBins Y) M n
    sum.HasValue y ∧
    (n < M → sum.settled → cfg.xform = .correctlyRounded → IsRn32 y ((irfft cfg Y M).getD n 0#32)) ∧
    (∀ eps : Nat, n < M → sum.settled → cfg.xform = .bounded eps →
      IsWithin ((Config.xformEps eps).val * size) y ((irfft cfg Y M).getD n 0#32))

/-- R156, R160: a legal FFT_FWD completes with the normalised spectrum in SPEC[0 .. L/2] and SPEC_LEN = L/2 + 1; every other byte
and everything else is unchanged. -/
def Obligations.FftFwdResult : Prop :=
  ∀ (s : State) (L : Nat), s.srcLen.toNat = L → legalLength L s.cfg.srcLenMax →
    (∀ n < L, isFinite (s.word (sampleOffset n)) = true) →
    ∃ t, exec .fftFwd s = .next t ∧
      t = { s with engine := .idle, done := true, specLen := BitVec.ofNat 32 (L / 2 + 1), mem := t.mem } ∧
      (∀ k ≤ L / 2,
        let X := rfft s.cfg (s.words (sampleOffset 0) L) k
        let scale := rn32 (2 * 2 ^ 149) L
        t.word (specOffset k) = mul32 X.2 scale ∧ t.word (specOffset k + 4) = mul32 (neg32 X.1) scale) ∧
      (∀ a, a < specOffset 0 ∨ specOffset (L / 2 + 1) ≤ a → t.byte a = s.byte a)

/-- R160: the errors of FFT_FWD in their order. -/
def Obligations.FftFwdErrors : Prop :=
  ∀ s : State,
    let L := s.srcLen.toNat
    (L % 2 = 1 ∨ L < 4 → exec .fftFwd s = .next (s.completedWith .badLength)) ∧
    (L % 2 = 0 → 4 ≤ L → s.cfg.srcLenMax < L → exec .fftFwd s = .next (s.completedWith .capacity)) ∧
    (legalLength L s.cfg.srcLenMax → (∃ n < L, isFinite (s.word (sampleOffset n)) = false) →
      exec .fftFwd s = .next (s.completedWith .badOperand))

/-- R159: the gate counts exactly the harmonics k <= M/2 whose k/M is at or below the cutoff, compared with no rounding; an infinite
cutoff admits all of them or none; bin 0 is never included. -/
def Obligations.GateIsExact : Prop :=
  ∀ (c : Word) (M : Nat), isNaN c = false →
    gateCount c M ≤ M / 2 ∧
    (isFinite c = true → ∀ k, 1 ≤ k → k ≤ M / 2 → (k ≤ gateCount c M ↔ (k : Int) * 2 ^ 149 ≤ scaled c * M)) ∧
    (isInf c = true → gateCount c M = (if signBit c then 0 else M / 2)) ∧
    ∀ (harm : Nat → Word × Word) (A : Word), (allBins (includedBins harm A (gateCount c M)) M).head? = some (posZero, posZero)

/-- R157, R161, R170: a legal SYNTH m completes with the inverse transform of its bins in ROW(m, 0 .. M-1), HARM_COUNT = K and
TABLES_VALID = 0; every other byte, the guard words among them, and everything else is unchanged. -/
def Obligations.SynthResult : Prop :=
  ∀ (b : BitVec 5) (s : State) (M K : Nat) (Y : List (Word × Word)), b.toNat < 24 → s.tableSize.toNat = M →
    legalLength M s.cfg.tableSizeMax → isFinite s.amplitude = true → isNaN s.cutoff = false → K = gateCount s.cutoff M →
    Y.length = M / 2 + 1 →
    (∀ k ≤ M / 2,
      let h := if k < s.specLen.toNat then (s.word (specOffset k), s.word (specOffset k + 4)) else (posZero, posZero)
      let a := mul32 s.amplitude 0x3F000000#32
      Y.getD k (posZero, posZero) = (if 1 ≤ k ∧ k ≤ K then (mul32 a (neg32 h.2), mul32 a h.1) else (posZero, posZero))) →
    (∀ y ∈ Y, isFinite y.1 = true ∧ isFinite y.2 = true) →
    ∃ t, exec (.synth b) s = .next t ∧
      t = { s with engine := .idle, done := true, harmCount := BitVec.ofNat 32 K, tablesValid := false, mem := t.mem } ∧
      (∀ p < M, t.word (rowOffset M b.toNat (4 + p)) = (irfft s.cfg Y M).getD p 0#32) ∧
      (∀ a, a < rowOffset M b.toNat 4 ∨ rowOffset M b.toNat (4 + M) ≤ a → t.byte a = s.byte a)

/-- R170, R241, R242: the errors of SYNTH that do not depend on a bin, in their order. That the command itself, not only decoding,
answers BAD_BAND for a band of 24 to 31 is the model's choice (log 16). -/
def Obligations.SynthErrors : Prop :=
  ∀ (b : BitVec 5) (s : State),
    let M := s.tableSize.toNat
    (24 ≤ b.toNat → exec (.synth b) s = .next (s.completedWith .badBand)) ∧
    (b.toNat < 24 → M % 2 = 1 ∨ M < 4 → exec (.synth b) s = .next (s.completedWith .badLength)) ∧
    (b.toNat < 24 → M % 2 = 0 → 4 ≤ M → s.cfg.tableSizeMax < M → exec (.synth b) s = .next (s.completedWith .capacity)) ∧
    (b.toNat < 24 → legalLength M s.cfg.tableSizeMax → isFinite s.amplitude = false ∨ isNaN s.cutoff = true →
      exec (.synth b) s = .next (s.completedWith .badOperand))

/-- R170, R161: under correct rounding a row with no admitted harmonic (K = 0, or SPEC_LEN at most 1) is all +0. -/
def Obligations.SilentSynthRowIsZero : Prop :=
  ∀ (b : BitVec 5) (s : State) (M : Nat), b.toNat < 24 → s.tableSize.toNat = M → legalLength M s.cfg.tableSizeMax →
    isFinite s.amplitude = true → isNaN s.cutoff = false → s.cfg.xform = .correctlyRounded →
    gateCount s.cutoff M = 0 ∨ s.specLen.toNat ≤ 1 →
    ∃ t, exec (.synth b) s = .next t ∧ t.err = s.err ∧
      ∀ p < M, t.word (rowOffset M b.toNat (4 + p)) = 0x00000000#32

/-! ## CUT and PAD -/

/-- R192, R195: a legal CUTOFF m writes the cutoff, the frequency it is divided by and the gate count; nothing else changes. -/
def Obligations.CutoffResult : Prop :=
  ∀ (b : BitVec 5) (s : State) (M : Nat) (c : Word), b.toNat < 24 → s.tableSize.toNat = M →
    legalLength M s.cfg.tableSizeMax → isFinite s.refRate = true → 0 < scaled s.refRate →
    c = div32 (div32 (mul32 0x3F000000#32 s.refRate) (float32 M)) (sf (b.toNat + 1)) →
    exec (.cutoff b) s = .next { s with
      engine := .idle, done := true, result0 := c, result1 := sf (b.toNat + 1),
      resultIndex := BitVec.ofNat 32 (gateCount c M) }

/-- R190, R191, R195: the errors of CUTOFF in their order. That the command itself, not only decoding, answers BAD_BAND for a band of
24 to 31 is the model's choice (log 16). -/
def Obligations.CutoffErrors : Prop :=
  ∀ (b : BitVec 5) (s : State),
    let M := s.tableSize.toNat
    (24 ≤ b.toNat → exec (.cutoff b) s = .next (s.completedWith .badBand)) ∧
    (b.toNat < 24 → M % 2 = 1 ∨ M < 4 → exec (.cutoff b) s = .next (s.completedWith .badLength)) ∧
    (b.toNat < 24 → M % 2 = 0 → 4 ≤ M → s.cfg.tableSizeMax < M → exec (.cutoff b) s = .next (s.completedWith .capacity)) ∧
    (b.toNat < 24 → legalLength M s.cfg.tableSizeMax → isFinite s.refRate = false ∨ scaled s.refRate ≤ 0 →
      exec (.cutoff b) s = .next (s.completedWith .badOperand))

/-- R193: a higher band has no higher cutoff and keeps no more harmonics: CUTOFF's RESULT0 and RESULT_INDEX do not increase with
the band. -/
def Obligations.CutoffsAreMonotone : Prop :=
  ∀ (b b' : BitVec 5) (s : State), b.toNat ≤ b'.toNat → b'.toNat < 24 → legalLength s.tableSize.toNat s.cfg.tableSizeMax →
    isFinite s.refRate = true → 0 < scaled s.refRate →
    ∃ t t', exec (.cutoff b) s = .next t ∧ exec (.cutoff b') s = .next t' ∧
      scaled t'.result0 ≤ scaled t.result0 ∧ t'.resultIndex.toNat ≤ t.resultIndex.toNat

/-- R200, R202: a legal PAD_ROW m copies the first four playable words after the row and the last four before it; every other byte
and everything else but TABLES_VALID is unchanged. -/
def Obligations.PadRowResult : Prop :=
  ∀ (b : BitVec 5) (s : State) (M : Nat), b.toNat < 24 → s.tableSize.toNat = M → legalLength M s.cfg.tableSizeMax →
    ∃ t, exec (.padRow b) s = .next t ∧
      t = { s with engine := .idle, done := true, tablesValid := false, mem := t.mem } ∧
      (∀ k < 4, t.rowWord M b.toNat (4 + M + k) = s.rowWord M b.toNat (4 + k) ∧
        t.rowWord M b.toNat (3 - k) = s.rowWord M b.toNat (4 + M - 1 - k)) ∧
      (∀ a, (a < rowOffset M b.toNat 0 ∨ rowOffset M b.toNat 4 ≤ a) →
        (a < rowOffset M b.toNat (4 + M) ∨ rowOffset M b.toNat (8 + M) ≤ a) → t.byte a = s.byte a)

/-- R190, R200, R203: the errors of PAD_ROW and PAD_ALL in their order. That PAD_ROW itself, not only decoding, answers BAD_BAND for
a band of 24 to 31 is the model's choice (log 16). -/
def Obligations.PadErrors : Prop :=
  ∀ (b : BitVec 5) (s : State),
    let M := s.tableSize.toNat
    (24 ≤ b.toNat → exec (.padRow b) s = .next (s.completedWith .badBand)) ∧
    (b.toNat < 24 → M % 2 = 1 ∨ M < 4 → exec (.padRow b) s = .next (s.completedWith .badLength)) ∧
    (b.toNat < 24 → M % 2 = 0 → 4 ≤ M → s.cfg.tableSizeMax < M → exec (.padRow b) s = .next (s.completedWith .capacity)) ∧
    (M % 2 = 1 ∨ M < 4 → exec .padAll s = .next (s.completedWith .badLength)) ∧
    (M % 2 = 0 → 4 ≤ M → s.cfg.tableSizeMax < M → exec .padAll s = .next (s.completedWith .capacity))

/-- R200: running PAD_ROW twice gives the same state as running it once. -/
def Obligations.PadRowTwiceIsOnce : Prop :=
  ∀ (b : BitVec 5) (s t : State), exec (.padRow b) s = .next t → exec (.padRow b) t = .next t

/-- R201, R202, R203: a legal PAD_ALL pads every row from its own playable words, which it leaves as they were; every byte outside
the guard words and everything else but TABLES_VALID is unchanged. -/
def Obligations.PadAllResult : Prop :=
  ∀ (s : State) (M : Nat), s.tableSize.toNat = M → legalLength M s.cfg.tableSizeMax →
    ∃ t, exec .padAll s = .next t ∧
      t = { s with engine := .idle, done := true, tablesValid := false, mem := t.mem } ∧
      (∀ m < 24, t.rowPadded M m ∧ ∀ p < M, t.rowWord M m (4 + p) = s.rowWord M m (4 + p)) ∧
      (∀ a, (∀ m < 24, (a < rowOffset M m 0 ∨ rowOffset M m 4 ≤ a) ∧
        (a < rowOffset M m (4 + M) ∨ rowOffset M m (8 + M) ≤ a)) → t.byte a = s.byte a)

/-! ## SEQ -/

/-- R204, R205: a legal BUILD completes with every row the inverse transform of its band's bins, every row padded, HARM_COUNT the
gate count of band 23 and TABLES_VALID = 1; every byte outside TAB[0 .. 24(M+8)-1] and everything else is unchanged. -/
def Obligations.BuildResult : Prop :=
  ∀ (s : State) (M : Nat), s.tableSize.toNat = M → legalLength M s.cfg.tableSizeMax →
    isFinite s.refRate = true → 0 < scaled s.refRate → isFinite s.amplitude = true →
    (∀ m < 24, ∀ k, 1 ≤ k → k ≤ gateCount (cut m M s.refRate).1 M →
      isFinite (synthBin (mul32 s.amplitude 0x3F000000#32) (s.harm k)).1 = true ∧
      isFinite (synthBin (mul32 s.amplitude 0x3F000000#32) (s.harm k)).2 = true) →
    ∃ t, exec .build s = .next t ∧
      t = { s with
        engine := .idle, done := true, tablesValid := true, mem := t.mem,
        harmCount := BitVec.ofNat 32 (gateCount (cut 23 M s.refRate).1 M) } ∧
      (∀ m < 24, t.rowPadded M m ∧ ∀ p < M,
        t.rowWord M m (4 + p) =
          (irfft s.cfg (allBins (includedBins s.harm s.amplitude (gateCount (cut m M s.refRate).1 M)) M) M).getD p 0#32) ∧
      (∀ a, a < tabOffset 0 ∨ tabOffset (24 * (M + 8)) ≤ a → t.byte a = s.byte a)

/-- R170, R205, R210, R242: an included bin whose real or imaginary part is not finite raises BAD_OPERAND and nothing is written: in
SYNTH for a bin its cutoff admits, in BUILD and BUILD_AUDIO for a bin of any band, which band 0 includes too (R193). -/
def Obligations.BuildFailsAsAWhole : Prop :=
  ∀ (s : State) (M k : Nat) (A : Word), s.tableSize.toNat = M → legalLength M s.cfg.tableSizeMax →
    isFinite s.amplitude = true → A = mul32 s.amplitude 0x3F000000#32 → 1 ≤ k →
    let bad (h : Word × Word) := isFinite (mul32 A (neg32 h.2)) = false ∨ isFinite (mul32 A h.1) = false
    let rateOk := isFinite s.refRate = true ∧ 0 < scaled s.refRate
    (∀ b : BitVec 5, b.toNat < 24 → isNaN s.cutoff = false → k ≤ gateCount s.cutoff M → bad (s.harm k) →
      exec (.synth b) s = .next (s.completedWith .badOperand)) ∧
    (∀ m < 24, rateOk → k ≤ gateCount (cut m M s.refRate).1 M → bad (s.harm k) →
      k ≤ gateCount (cut 0 M s.refRate).1 M ∧ exec .build s = .next (s.completedWith .badOperand)) ∧
    (∀ m < 24, rateOk → k ≤ gateCount (cut m M s.refRate).1 M → legalLength s.srcLen.toNat s.cfg.srcLenMax →
      (∀ n < s.srcLen.toNat, isFinite (s.word (sampleOffset n)) = true) →
      bad ((forwardProfile s.cfg (s.words (sampleOffset 0) s.srcLen.toNat)).getD k (posZero, posZero)) →
      k ≤ gateCount (cut 0 M s.refRate).1 M ∧ exec .buildAudio s = .next (s.completedWith .badOperand))

/-- R205: under correct rounding, SPEC_LEN of 0 or 1 builds all-zero tables, guards included, with TABLES_VALID = 1. -/
def Obligations.SilentBuildIsZero : Prop :=
  ∀ (s : State) (M : Nat), s.tableSize.toNat = M → legalLength M s.cfg.tableSizeMax →
    isFinite s.refRate = true → 0 < scaled s.refRate → isFinite s.amplitude = true →
    s.cfg.xform = .correctlyRounded → s.specLen.toNat ≤ 1 →
    ∃ t, exec .build s = .next t ∧ t.tablesValid = true ∧
      ∀ w < 24 * (M + 8), t.word (tabOffset w) = 0x00000000#32

/-- R207: two builds of the same operands, in states that may differ elsewhere, end alike, and where they succeed they leave the
same bits in TAB[0 .. 24(M+8)-1] and in HARM_COUNT; in both numerics modes. -/
def Obligations.BuildsAreIdempotent : Prop :=
  ∀ s s' t t' : State, s.cfg = s'.cfg → s.tableSize = s'.tableSize → s.refRate = s'.refRate → s.amplitude = s'.amplitude →
    s.errCode = .ok → s'.errCode = .ok →
    let same := t.errCode = t'.errCode ∧ (t.errCode = .ok →
      t.harmCount = t'.harmCount ∧ ∀ w < 24 * (s.tableSize.toNat + 8), t.word (tabOffset w) = t'.word (tabOffset w))
    (s.specLen = s'.specLen → (∀ k, 1 ≤ k → k < s.specLen.toNat → s.specEntry k = s'.specEntry k) →
      exec .build s = .next t → exec .build s' = .next t' → same) ∧
    (s.srcLen = s'.srcLen → (∀ n < s.srcLen.toNat, s.word (sampleOffset n) = s'.word (sampleOffset n)) →
      exec .buildAudio s = .next t → exec .buildAudio s' = .next t' → same)

/-- R210: a legal BUILD_AUDIO completes in exactly the state that FFT_FWD and then BUILD reach, with the spectrum's length in
SPEC_LEN and TABLES_VALID = 1. -/
def Obligations.BuildAudioIsForwardThenBuild : Prop :=
  ∀ (s : State) (L M : Nat) (H : List (Word × Word)), s.srcLen.toNat = L → s.tableSize.toNat = M →
    legalLength L s.cfg.srcLenMax → legalLength M s.cfg.tableSizeMax →
    isFinite s.refRate = true → 0 < scaled s.refRate → isFinite s.amplitude = true →
    (∀ n < L, isFinite (s.word (sampleOffset n)) = true) → H = forwardProfile s.cfg (s.words (sampleOffset 0) L) →
    (∀ m < 24, ∀ k, 1 ≤ k → k ≤ gateCount (cut m M s.refRate).1 M →
      isFinite (synthBin (mul32 s.amplitude 0x3F000000#32) (H.getD k (posZero, posZero))).1 = true ∧
      isFinite (synthBin (mul32 s.amplitude 0x3F000000#32) (H.getD k (posZero, posZero))).2 = true) →
    ∃ u v, exec .fftFwd s = .next u ∧ exec .build u = .next v ∧ exec .buildAudio s = .next v ∧
      v.specLen.toNat = L / 2 + 1 ∧ v.tablesValid = true ∧ v.errCode = s.errCode

/-- R205, R210, R242: the errors of BUILD and BUILD_AUDIO that do not depend on a bin, in their order. BUILD_AUDIO checks L, then M,
then REF_RATE and AMPLITUDE, then the samples. -/
def Obligations.BuildErrors : Prop :=
  ∀ s : State,
    let L := s.srcLen.toNat
    let M := s.tableSize.toNat
    let badR := isFinite s.refRate = false ∨ scaled s.refRate ≤ 0
    let badA := isFinite s.amplitude = false
    let badSample := ∃ n < L, isFinite (s.word (sampleOffset n)) = false
    (M % 2 = 1 ∨ M < 4 → exec .build s = .next (s.completedWith .badLength)) ∧
    (M % 2 = 0 → 4 ≤ M → s.cfg.tableSizeMax < M → exec .build s = .next (s.completedWith .capacity)) ∧
    (legalLength M s.cfg.tableSizeMax → badR ∨ badA → exec .build s = .next (s.completedWith .badOperand)) ∧
    (L % 2 = 1 ∨ L < 4 → exec .buildAudio s = .next (s.completedWith .badLength)) ∧
    (L % 2 = 0 → 4 ≤ L → s.cfg.srcLenMax < L → exec .buildAudio s = .next (s.completedWith .capacity)) ∧
    (legalLength L s.cfg.srcLenMax → M % 2 = 1 ∨ M < 4 → exec .buildAudio s = .next (s.completedWith .badLength)) ∧
    (legalLength L s.cfg.srcLenMax → M % 2 = 0 → 4 ≤ M → s.cfg.tableSizeMax < M →
      exec .buildAudio s = .next (s.completedWith .capacity)) ∧
    (legalLength L s.cfg.srcLenMax → legalLength M s.cfg.tableSizeMax → badR ∨ badA ∨ badSample →
      exec .buildAudio s = .next (s.completedWith .badOperand))

/-- R220: NOP does nothing but complete. -/
def Obligations.NopOnlyCompletes : Prop :=
  ∀ s : State, exec .nop s = .next { s with engine := .idle, done := true }

/-! ## The bus, the registers, the flags -/

/-- R62: which accesses get ERROR, by the address map of R60; an ERROR changes nothing and reads 0; every other access is OKAY, and
a write to a read-only or reserved register offset is ignored. -/
def Obligations.BadAccessesGetErrorOnly : Prop :=
  ∀ (s : State) (a : BitVec 21) (narrow : Bool) (lanes : BitVec 4) (v : Word), s.cfg.wf →
    let x := a.toNat
    let unmapped := (0x2064 ≤ x ∧ x < 0x10000) ∨ (0x10000 + 4 * s.cfg.srcLenMax ≤ x ∧ x < 0x20000) ∨
      (0x20000 + 8 * s.cfg.specCap ≤ x ∧ x < 0x100000) ∨ 0x100000 + 4 * s.cfg.tabWords ≤ x
    let rom := 0x1000 ≤ x ∧ x < 0x2064
    (narrow = true ∨ x % 4 ≠ 0 ∨ unmapped →
      s.hostEvent (.read a narrow) = { s with response := some (.errorRead 0#32), draws := s.draws + 1 }) ∧
    (¬ (narrow = true ∨ x % 4 ≠ 0 ∨ unmapped) → ∃ d, (s.hostEvent (.read a narrow)).response = some (.okayRead d)) ∧
    (narrow = true ∨ lanes ≠ 0xF#4 ∨ x % 4 ≠ 0 ∨ unmapped ∨ rom →
      s.hostEvent (.write a narrow lanes v) = { s with response := some .errorWrite }) ∧
    (¬ (narrow = true ∨ lanes ≠ 0xF#4 ∨ x % 4 ≠ 0 ∨ unmapped ∨ rom) →
      (s.hostEvent (.write a narrow lanes v)).response = some .okayWrite) ∧
    (narrow = false → lanes = 0xF#4 → x % 4 = 0 → x < 0x14 ∨ (0x44 ≤ x ∧ x < 0x1000) →
      s.hostEvent (.write a narrow lanes v) = { s with response := some .okayWrite })

/-- R22, R45, R49, R65, R67, R71: a read changes nothing of the block. A register offset of R22 answers the register's word and a RAM
word its current bits, while idle, and while busy wherever the location is not in the write set of the command in flight; a reserved
offset answers 0 and a ROM offset its entry, idle or busy. A read of STATUS, idle or busy whatever is in flight, answers every bit
but TABLES_VALID as it is (R285, R286). Two clauses are the model's reading of the spec (DEDUCED): that a result register or
HARM_COUNT reads as it is while a command that does not write it is in flight, where R41 to R44 say "unspecified while BUSY = 1"
(log 7), and that of STATUS only TABLES_VALID can be unspecified, and only with a command in flight that writes it (log 8).What
the write set in RAM is for a length the command would refuse is the model's choice (log 6, DESIGN CHOICE). -/
def Obligations.ReadsChangeNothing : Prop :=
  ∀ s : State,
    let answer (a : BitVec 21) := (s.hostEvent (.read a false)).response
    (∀ (a : BitVec 21) (narrow : Bool),
      ∃ r, s.hostEvent (.read a narrow) = { s with response := some r, draws := s.draws + 1 }) ∧
    (∀ x ∈ ([(0x00#21, .id), (0x04#21, .version), (0x08#21, .caps0), (0x0C#21, .caps1), (0x10#21, .caps2), (0x14#21, .ctrl),
        (0x18#21, .irqEn), (0x1C#21, .status), (0x20#21, .cmd), (0x24#21, .srcLen), (0x28#21, .tableSize),
        (0x2C#21, .refRate), (0x30#21, .amplitude), (0x34#21, .cutoff), (0x38#21, .freq), (0x3C#21, .index),
        (0x40#21, .specLen), (0x44#21, .result0), (0x48#21, .result1), (0x4C#21, .resultIndex),
        (0x50#21, .harmCount)] : List (BitVec 21 × Reg)),
      s.isBusy = false ∨ (∀ i, decode s.cmd = .ok i → writesReg i x.2 = false) →
      answer x.1 = some (.okayRead (s.readReg x.2))) ∧
    (∃ w, answer 0x1C#21 = some (.okayRead w) ∧ ∀ k < 32, k ≠ 5 → w.getLsbD k = (s.readReg .status).getLsbD k) ∧
    (∀ a : BitVec 21, a.toNat % 4 = 0 → 0x54 ≤ a.toNat → a.toNat < 0x1000 → answer a = some (.okayRead 0#32)) ∧
    (∀ i < 1024, answer (BitVec.ofNat 21 (0x1000 + 4 * i)) = some (.okayRead (f2i i))) ∧
    (∀ t < 25, answer (BitVec.ofNat 21 (0x2000 + 4 * t)) = some (.okayRead (sf t))) ∧
    (∀ a : BitVec 21, a.toNat % 4 = 0 →
      locate s.cfg a.toNat = .sample ∨ locate s.cfg a.toNat = .spec ∨ locate s.cfg a.toNat = .tab →
      s.isBusy = false ∨ (∀ i, decode s.cmd = .ok i → ∀ r ∈ writeRanges s i, a.toNat < r.1 ∨ r.1 + 4 * r.2 ≤ a.toNat) →
      answer a = some (.okayRead (s.word a.toNat)))

/-- R53, R66, R67: while idle, an aligned full-width write of a RAM word is read back bit for bit, every other RAM word reads as
before, and nothing else changes but that a write to TAB clears TABLES_VALID. -/
def Obligations.RamWritesAreReadBack : Prop :=
  ∀ (s : State) (a a' : BitVec 21) (v : Word), s.isBusy = false → a.toNat % 4 = 0 → a'.toNat % 4 = 0 →
    (locate s.cfg a.toNat = .sample ∨ locate s.cfg a.toNat = .spec ∨ locate s.cfg a.toNat = .tab) →
    (locate s.cfg a'.toNat = .sample ∨ locate s.cfg a'.toNat = .spec ∨ locate s.cfg a'.toNat = .tab) →
    let t := s.hostEvent (.write a false 0xF#4 v)
    (t.hostEvent (.read a' false)).response = some (.okayRead (if a' = a then v else s.word a'.toNat)) ∧
    t = { s with
      mem := t.mem, tablesValid := s.tablesValid && decide (locate s.cfg a.toNat ≠ .tab), response := some .okayWrite }

/-- R70: while busy, an OKAY write to an RW-idle register or a RAM word is dropped and sets BUSY_WRITE. -/
def Obligations.BusyWritesAreDropped : Prop :=
  ∀ (s : State) (a : BitVec 21) (v : Word), s.isBusy = true → a.toNat % 4 = 0 →
    (0x24 ≤ a.toNat ∧ a.toNat ≤ 0x40) ∨ locate s.cfg a.toNat = .sample ∨ locate s.cfg a.toNat = .spec ∨
      locate s.cfg a.toNat = .tab →
    s.hostEvent (.write a false 0xF#4 v) = { s with busyWrite := true, response := some .okayWrite }

/-- R70, R73: while a command stays in flight, no step changes an operand register, CMD, the RAMs, the results or the
configuration. -/
def Obligations.OperandsAreFrozenWhileBusy : Prop :=
  ∀ s t : State, s.isBusy = true → step s = .next t → t.isBusy = true →
    t.cmd = s.cmd ∧ t.srcLen = s.srcLen ∧ t.tableSize = s.tableSize ∧ t.refRate = s.refRate ∧ t.amplitude = s.amplitude ∧
    t.cutoff = s.cutoff ∧ t.freq = s.freq ∧ t.index = s.index ∧ t.specLen = s.specLen ∧ t.result0 = s.result0 ∧
    t.result1 = s.result1 ∧ t.resultIndex = s.resultIndex ∧ t.harmCount = s.harmCount ∧ t.mem = s.mem ∧
    t.ramEpoch = s.ramEpoch ∧ t.cfg = s.cfg

/-- R32: a CMD write while idle is accepted, with its effects on STATUS; while busy it is dropped and sets CMD_OVERRUN. A read of
CMD returns the last accepted word, 0 after reset. How many accesses the engine then leaves is free (log 2). -/
def Obligations.CmdWriteIsAcceptedOrDropped : Prop :=
  State.reset.readReg .cmd = 0#32 ∧
  ∀ (s : State) (c : Word),
    let t := s.hostEvent (.write 0x20#21 false 0xF#4 c)
    (s.isBusy = false → t.isBusy = true ∧ t.readReg .cmd = c ∧
      t = { s with
        cmd := c, engine := t.engine, draws := t.draws, done := false, err := false, errCode := .ok,
        response := some .okayWrite }) ∧
    (s.isBusy = true → t = { s with cmdOverrun := true, response := some .okayWrite } ∧ t.readReg .cmd = s.cmd)

/-- R31: a STATUS write, idle or busy, clears the W1C fields whose bits are 1, ERRCODE with ERR, and nothing else; over the bits
of the STATUS word. -/
def Obligations.StatusWriteClearsItsFields : Prop :=
  ∀ (s : State) (v : Word),
    let t := s.hostEvent (.write 0x1C#21 false 0xF#4 v)
    t = { s with
      done := t.done, err := t.err, errCode := t.errCode, cmdOverrun := t.cmdOverrun, busyWrite := t.busyWrite,
      response := some .okayWrite } ∧
    ∀ k < 32, t.statusWord.getLsbD k =
      (s.statusWord.getLsbD k &&
        !((decide (1 ≤ k ∧ k ≤ 4) && v.getLsbD k) || (decide (8 ≤ k ∧ k ≤ 15) && v.getLsbD 2)))

/-- R30, R241: the STATUS word, field by field, with the numbers of the error codes. R29: the IRQ_EN word. R51: IRQ over the bits
of the two words a host reads. -/
def Obligations.IrqIsItsFunction : Prop :=
  ∀ s : State,
    (s.readReg .status).toNat =
      s.isBusy.toNat + 2 * s.done.toNat + 4 * s.err.toNat + 8 * s.cmdOverrun.toNat + 16 * s.busyWrite.toNat +
        32 * s.tablesValid.toNat + 256 *
          (match s.errCode with
            | .ok => 0x00
            | .illegalCmd => 0x01
            | .reservedBits => 0x02
            | .badBand => 0x03
            | .badLength => 0x04
            | .capacity => 0x05
            | .badOperand => 0x06) ∧
    (s.readReg .irqEn).toNat = s.doneIe.toNat + 2 * s.errIe.toNat ∧
    s.irq = (((s.readReg .status).getLsbD 1 && (s.readReg .irqEn).getLsbD 0) ||
      ((s.readReg .status).getLsbD 2 && (s.readReg .irqEn).getLsbD 1))

/-- R28, R29, R33 to R40, R66: an IRQ_EN write, idle or busy, stores its two enables; while idle a write of an operand register
stores the word, TABLE_SIZE clearing TABLES_VALID and SPEC_LEN storing min(v, SPEC_CAP), unsigned; a CTRL write without bit 0 has no
effect. Nothing else changes. -/
def Obligations.RegisterWritesTakeTheirValue : Prop :=
  ∀ (s : State) (v : Word),
    let after (a : BitVec 21) : State := s.hostEvent (.write a false 0xF#4 v)
    after 0x18#21 = { s with doneIe := v.getLsbD 0, errIe := v.getLsbD 1, response := some .okayWrite } ∧
    (v.getLsbD 0 = false → after 0x14#21 = { s with response := some .okayWrite }) ∧
    (s.isBusy = false →
      after 0x24#21 = { s with srcLen := v, response := some .okayWrite } ∧
      after 0x28#21 = { s with tableSize := v, tablesValid := false, response := some .okayWrite } ∧
      after 0x2C#21 = { s with refRate := v, response := some .okayWrite } ∧
      after 0x30#21 = { s with amplitude := v, response := some .okayWrite } ∧
      after 0x34#21 = { s with cutoff := v, response := some .okayWrite } ∧
      after 0x38#21 = { s with freq := v, response := some .okayWrite } ∧
      after 0x3C#21 = { s with index := v, response := some .okayWrite } ∧
      (s.cfg.wf → after 0x40#21 = { s with specLen := (after 0x40#21).specLen, response := some .okayWrite } ∧
        (after 0x40#21).specLen.toNat = min v.toNat s.cfg.specCap))

/-- R272: a soft reset, idle or busy: every register and the engine as after hard reset, no completion; a RAM byte outside the write
set of an aborted command keeps its value, and while idle all of memory is untouched. What the write set is for a length the command
would refuse is the model's choice (log 6, DESIGN CHOICE). -/
def Obligations.SoftResetResult : Prop :=
  ∀ (s : State) (v : Word), v.getLsbD 0 = true →
    let t := s.hostEvent (.write 0x14#21 false 0xF#4 v)
    t = { State.afterHardReset s.cfg s.ramEpoch t.draws s.host with mem := t.mem, response := some .okayWrite } ∧
    t.irq = false ∧
    (s.isBusy = false → t.mem = s.mem) ∧
    (∀ a, (∀ i, decode s.cmd = .ok i → ∀ r ∈ writeRanges s i, a < r.1 ∨ r.1 + 4 * r.2 ≤ a) → t.byte a = s.byte a)

/-- R22, R270: what each register reads after hard reset, in any configuration; the constant ones and CTRL read so in every state
(R23 to R28). -/
def Obligations.ResetRegisterValues : Prop :=
  ∀ (s : State) (r : Reg),
    (s.hostEvent .hardReset).readReg r =
      (match r with
        | .id => 0x57544D46#32
        | .version => 0x00010007#32
        | .caps0 => BitVec.ofNat 32 s.cfg.srcLenMax
        | .caps1 => BitVec.ofNat 32 s.cfg.tableSizeMax
        | .caps2 => 0x04000418#32
        | .tableSize => 0x00000800#32
        | .refRate => 0x472C4400#32
        | .amplitude => 0x3F800000#32
        | _ => 0x00000000#32) ∧
    (r = .id ∨ r = .version ∨ r = .caps0 ∨ r = .caps1 ∨ r = .caps2 ∨ r = .ctrl →
      s.readReg r = (s.hostEvent .hardReset).readReg r) ∧
    (s.hostEvent .hardReset).isBusy = false ∧ (s.hostEvent .hardReset).irq = false ∧ (s.hostEvent .hardReset).cfg = s.cfg
end

