-- ==== Sys2Proof/Laws/Memory.lean ====
section
/-!
SUPPORT. What the one memory write does: the byte at every offset after it, the word read back, and that it keeps the canonical
form.
-/

namespace Sys2Proof.Machine

/-- Looking up a key among the cells whose key passes `p`. -/
theorem lookup_filter_fst (p : Nat → Bool) (x : Nat) (l : List Host.Cell) :
    (l.filter fun c => p c.1).lookup x = if p x then l.lookup x else none := by
  induction l with
  | nil => simp
  | cons c l ih =>
    obtain ⟨k, b⟩ := c
    by_cases hk : x = k
    · subst hk
      by_cases hp : p x = true
      · simp [hp]
      · simp [hp, ih]
    · have hb : (x == k) = false := by simpa using hk
      by_cases hp : p k = true
      · simp [hp, ih, List.lookup_cons, hb]
      · simp [hp, ih, List.lookup_cons, hb]

/-- The byte that a block of words from offset `a` holds at offset `x`. -/
def blockByte (a : Nat) (ws : List Word) (x : Nat) : Byte :=
  (ws.getD ((x - a) / 4) 0#32).extractLsb' (8 * ((x - a) % 4)) 8

theorem lookup_laneCells (a : Nat) (w : Word) (x : Nat) :
    (laneCells a w).lookup x =
      if a ≤ x ∧ x < a + 4 then some (w.extractLsb' (8 * (x - a)) 8) else none := by
  have key : ∀ r b l, x ≠ a + r → ((a + r, b) :: l : List Host.Cell).lookup x = l.lookup x := by
    intro r b l h
    rw [List.lookup_cons, show (x == a + r) = false by simpa using h]
  simp only [laneCells]
  by_cases h0 : x = a
  · subst h0; simp
  have k0 := key 0 (w.extractLsb' 0 8) [(a + 1, w.extractLsb' 8 8), (a + 2, w.extractLsb' 16 8), (a + 3, w.extractLsb' 24 8)] h0
  rw [Nat.add_zero] at k0
  rw [k0]
  by_cases h1 : x = a + 1
  · subst h1; simp
  rw [key 1 _ _ h1]
  by_cases h2 : x = a + 2
  · subst h2; simp
  rw [key 2 _ _ h2]
  by_cases h3 : x = a + 3
  · subst h3; simp
  rw [key 3 _ _ h3, if_neg (by omega), List.lookup_nil]

theorem lookup_blockCells (ws : List Word) (a x : Nat) :
    (blockCells a ws).lookup x =
      if a ≤ x ∧ x < a + 4 * ws.length then some (blockByte a ws x) else none := by
  induction ws generalizing a with
  | nil =>
    have : ¬ (a ≤ x ∧ x < a) := by omega
    simp [blockCells, this]
  | cons w ws ih =>
    rw [blockCells, List.lookup_append, lookup_laneCells, ih]
    by_cases h : a ≤ x ∧ x < a + 4
    · have h' : a ≤ x ∧ x < a + 4 * (w :: ws).length := by simp; omega
      have hd : (x - a) / 4 = 0 := by omega
      have hm : (x - a) % 4 = x - a := by omega
      simp only [h, h', blockByte, hd, hm]
      simp
    · by_cases h2 : a + 4 ≤ x ∧ x < a + 4 + 4 * ws.length
      · have h' : a ≤ x ∧ x < a + 4 * (w :: ws).length := by simp; omega
        have hd : (x - a) / 4 = (x - (a + 4)) / 4 + 1 := by omega
        have hm : (x - a) % 4 = (x - (a + 4)) % 4 := by omega
        rw [if_neg h, if_pos h2, if_pos h', blockByte, blockByte, hd, hm]
        simp
      · have h' : ¬ (a ≤ x ∧ x < a + 4 * (w :: ws).length) := by simp; omega
        rw [if_neg h, if_neg h2, if_neg h', Option.or_none]

/-- Every byte after a write: the block's where it was stored, the old one elsewhere. -/
theorem Memory.byte?_writeWords (m : Memory) (a : Nat) (ws : List Word) (x : Nat) :
    (m.writeWords a ws).byte? x =
      if a ≤ x ∧ x < a + 4 * ws.length then some (blockByte a ws x) else m.byte? x := by
  simp only [Memory.byte?, Memory.writeWords, List.append_assoc, List.lookup_append, lookup_blockCells]
  rw [lookup_filter_fst (fun k => decide (k < a)), lookup_filter_fst (fun k => decide (a + 4 * ws.length ≤ k))]
  by_cases h1 : x < a
  · have : ¬ (a ≤ x ∧ x < a + 4 * ws.length) := by omega
    have h3 : ¬ (a + 4 * ws.length ≤ x) := by omega
    simp [h1, this, h3]
  · by_cases h2 : x < a + 4 * ws.length
    · have : a ≤ x ∧ x < a + 4 * ws.length := by omega
      simp [h1, this]
    · have : ¬ (a ≤ x ∧ x < a + 4 * ws.length) := by omega
      have h3 : a + 4 * ws.length ≤ x := by omega
      simp [h1, this, h3]

theorem State.byte_writeRam (s : State) (a : Nat) (ws : List Word) (x : Nat) :
    (s.writeRam a ws).byte x = if a ≤ x ∧ x < a + 4 * ws.length then blockByte a ws x else s.byte x := by
  simp only [State.byte, State.writeRam, Memory.byte?_writeWords]
  split <;> simp

/-- A byte outside the stored block reads as before. -/
theorem State.byte_writeRam_outside (s : State) (a : Nat) (ws : List Word) (x : Nat)
    (h : x < a ∨ a + 4 * ws.length ≤ x) : (s.writeRam a ws).byte x = s.byte x := by
  rw [State.byte_writeRam, if_neg (by omega)]

/-- A word outside the stored block reads as before. -/
theorem State.word_writeRam_outside (s : State) (a : Nat) (ws : List Word) (x : Nat)
    (h : x + 4 ≤ a ∨ a + 4 * ws.length ≤ x) : (s.writeRam a ws).word x = s.word x := by
  simp only [State.word]
  rw [State.byte_writeRam_outside, State.byte_writeRam_outside, State.byte_writeRam_outside,
    State.byte_writeRam_outside] <;> omega

/-- The four lanes of a word, put together, are the word (R63). -/
theorem lanes_join (w : Word) :
    (w.extractLsb' 24 8 ++ w.extractLsb' 16 8 ++ w.extractLsb' 8 8 ++ w.extractLsb' 0 8 : BitVec 32) = w := by
  apply BitVec.eq_of_getElem_eq
  intro i hi
  simp only [BitVec.getElem_append, BitVec.getElem_extractLsb']
  split
  · simp [BitVec.getLsbD_eq_getElem hi]
  split
  · rw [show 8 + (i - 8) = i from by omega]; simp [BitVec.getLsbD_eq_getElem hi]
  split
  · rw [show 16 + (i - 8 - 8) = i from by omega]; simp [BitVec.getLsbD_eq_getElem hi]
  · rw [show 24 + (i - 8 - 8 - 8) = i from by omega]; simp [BitVec.getLsbD_eq_getElem hi]

/-- The j-th word of a stored block reads back as it was written. -/
theorem State.word_writeRam_inside (s : State) (a : Nat) (ws : List Word) (j : Nat) (h : j < ws.length) :
    (s.writeRam a ws).word (a + 4 * j) = ws.getD j 0#32 := by
  have e : ∀ r, r < 4 → (s.writeRam a ws).byte (a + 4 * j + r) = (ws.getD j 0#32).extractLsb' (8 * r) 8 := by
    intro r hr
    rw [State.byte_writeRam, if_pos (by omega), blockByte]
    have h1 : (a + 4 * j + r - a) / 4 = j := by omega
    have h2 : (a + 4 * j + r - a) % 4 = r := by omega
    rw [h1, h2]
  have e0 := e 0 (by omega)
  simp only [State.word, e 1 (by omega), e 2 (by omega), e 3 (by omega)]
  rw [Nat.add_zero] at e0
  rw [e0]
  exact lanes_join _

/-! ## The canonical form -/

theorem blockCells_fst (ws : List Word) (a : Nat) :
    ((blockCells a ws).map Prod.fst).Pairwise (· < ·) ∧
      ∀ k ∈ (blockCells a ws).map Prod.fst, a ≤ k ∧ k < a + 4 * ws.length := by
  induction ws generalizing a with
  | nil => simp [blockCells]
  | cons w ws ih =>
    obtain ⟨hp, hb⟩ := ih (a + 4)
    constructor
    · simp only [blockCells, List.map_append, List.pairwise_append]
      refine ⟨by simp [laneCells], hp, ?_⟩
      intro x hx y hy
      have h1 := hb y hy
      simp only [laneCells, List.map_cons, List.map_nil, List.mem_cons, List.not_mem_nil, or_false] at hx
      omega
    · intro k hk
      simp only [blockCells, List.map_append, List.mem_append] at hk
      simp only [List.length_cons]
      rcases hk with hk | hk
      · simp only [laneCells, List.map_cons, List.map_nil, List.mem_cons, List.not_mem_nil, or_false] at hk
        omega
      · have := hb k hk
        omega

/-- The memory write keeps the canonical form. -/
theorem Memory.wf_writeWords (m : Memory) (a : Nat) (ws : List Word) (h : m.wf) : (m.writeWords a ws).wf := by
  obtain ⟨hp, hb⟩ := blockCells_fst ws a
  have hs : ∀ p : Host.Cell → Bool, ((m.cells.filter p).map Prod.fst).Pairwise (· < ·) := fun p =>
    List.Pairwise.sublist (List.Sublist.map _ List.filter_sublist) h
  simp only [Memory.wf, Memory.writeWords, List.map_append, List.append_assoc, List.pairwise_append]
  refine ⟨hs _, ⟨hp, hs _, ?_⟩, ?_⟩
  · intro x hx y hy
    have := hb x hx
    simp only [List.mem_map, List.mem_filter, decide_eq_true_eq] at hy
    obtain ⟨c, ⟨_, hc⟩, rfl⟩ := hy
    omega
  · intro x hx y hy
    simp only [List.mem_map, List.mem_filter, decide_eq_true_eq] at hx
    obtain ⟨c, ⟨_, hc⟩, rfl⟩ := hx
    rw [List.mem_append] at hy
    rcases hy with hy | hy
    · have := hb y hy
      omega
    · simp only [List.mem_map, List.mem_filter, decide_eq_true_eq] at hy
      obtain ⟨d, ⟨_, hd⟩, rfl⟩ := hy
      omega

/-- Which offsets are listed after a write. -/
theorem Memory.mem_writeWords (m : Memory) (a : Nat) (ws : List Word) (x : Nat)
    (h : x ∈ (m.writeWords a ws).cells.map Prod.fst) :
    x ∈ m.cells.map Prod.fst ∨ (a ≤ x ∧ x < a + 4 * ws.length) := by
  simp only [Memory.writeWords, List.map_append, List.mem_append] at h
  rcases h with (h | h) | h
  · left
    simp only [List.mem_map, List.mem_filter] at h ⊢
    obtain ⟨c, ⟨hc, _⟩, rfl⟩ := h
    exact ⟨c, hc, rfl⟩
  · exact .inr ((blockCells_fst ws a).2 x h)
  · left
    simp only [List.mem_map, List.mem_filter] at h ⊢
    obtain ⟨c, ⟨hc, _⟩, rfl⟩ := h
    exact ⟨c, hc, rfl⟩

/-- Writing the same block again changes nothing. -/
theorem Memory.writeWords_twice (m : Memory) (a : Nat) (ws : List Word) :
    (m.writeWords a ws).writeWords a ws = m.writeWords a ws := by
  have hb := (blockCells_fst ws a).2
  have hlo : (blockCells a ws).filter (fun c => decide (c.1 < a)) = [] := by
    rw [List.filter_eq_nil_iff]
    intro c hc
    have := hb c.1 (List.mem_map_of_mem hc)
    simp; omega
  have hhi : (blockCells a ws).filter (fun c => decide (a + 4 * ws.length ≤ c.1)) = [] := by
    rw [List.filter_eq_nil_iff]
    intro c hc
    have := hb c.1 (List.mem_map_of_mem hc)
    simp; omega
  have e1 : (m.cells.filter fun c => decide (a + 4 * ws.length ≤ c.1)).filter (fun c => decide (c.1 < a)) = [] := by
    rw [List.filter_eq_nil_iff]
    intro c hc
    simp only [List.mem_filter, decide_eq_true_eq] at hc
    simp; omega
  have e2 : (m.cells.filter fun c => decide (c.1 < a)).filter (fun c => decide (a + 4 * ws.length ≤ c.1)) = [] := by
    rw [List.filter_eq_nil_iff]
    intro c hc
    simp only [List.mem_filter, decide_eq_true_eq] at hc
    simp; omega
  simp only [Memory.writeWords, List.filter_append, hlo, hhi, e1, e2, List.append_nil, List.nil_append]
  simp

end Sys2Proof.Machine
end

