-- ==== Sys2Proof/Laws/State.lean ====
section
/-!
SUPPORT. One lemma for each field of State and each named update, true by rfl.
-/

namespace Sys2Proof.Machine

@[simp] theorem State.accept_cfg (s : State) (c : Word) : (s.accept c).cfg = s.cfg := rfl
@[simp] theorem State.accept_engine (s : State) (c : Word) : (s.accept c).engine = .busy (Config.latency s.draws) := rfl
@[simp] theorem State.accept_doneIe (s : State) (c : Word) : (s.accept c).doneIe = s.doneIe := rfl
@[simp] theorem State.accept_errIe (s : State) (c : Word) : (s.accept c).errIe = s.errIe := rfl
@[simp] theorem State.accept_done (s : State) (c : Word) : (s.accept c).done = false := rfl
@[simp] theorem State.accept_err (s : State) (c : Word) : (s.accept c).err = false := rfl
@[simp] theorem State.accept_cmdOverrun (s : State) (c : Word) : (s.accept c).cmdOverrun = s.cmdOverrun := rfl
@[simp] theorem State.accept_busyWrite (s : State) (c : Word) : (s.accept c).busyWrite = s.busyWrite := rfl
@[simp] theorem State.accept_tablesValid (s : State) (c : Word) : (s.accept c).tablesValid = s.tablesValid := rfl
@[simp] theorem State.accept_errCode (s : State) (c : Word) : (s.accept c).errCode = .ok := rfl
@[simp] theorem State.accept_cmd (s : State) (c : Word) : (s.accept c).cmd = c := rfl
@[simp] theorem State.accept_srcLen (s : State) (c : Word) : (s.accept c).srcLen = s.srcLen := rfl
@[simp] theorem State.accept_tableSize (s : State) (c : Word) : (s.accept c).tableSize = s.tableSize := rfl
@[simp] theorem State.accept_refRate (s : State) (c : Word) : (s.accept c).refRate = s.refRate := rfl
@[simp] theorem State.accept_amplitude (s : State) (c : Word) : (s.accept c).amplitude = s.amplitude := rfl
@[simp] theorem State.accept_cutoff (s : State) (c : Word) : (s.accept c).cutoff = s.cutoff := rfl
@[simp] theorem State.accept_freq (s : State) (c : Word) : (s.accept c).freq = s.freq := rfl
@[simp] theorem State.accept_index (s : State) (c : Word) : (s.accept c).index = s.index := rfl
@[simp] theorem State.accept_specLen (s : State) (c : Word) : (s.accept c).specLen = s.specLen := rfl
@[simp] theorem State.accept_result0 (s : State) (c : Word) : (s.accept c).result0 = s.result0 := rfl
@[simp] theorem State.accept_result1 (s : State) (c : Word) : (s.accept c).result1 = s.result1 := rfl
@[simp] theorem State.accept_resultIndex (s : State) (c : Word) : (s.accept c).resultIndex = s.resultIndex := rfl
@[simp] theorem State.accept_harmCount (s : State) (c : Word) : (s.accept c).harmCount = s.harmCount := rfl
@[simp] theorem State.accept_mem (s : State) (c : Word) : (s.accept c).mem = s.mem := rfl
@[simp] theorem State.accept_ramEpoch (s : State) (c : Word) : (s.accept c).ramEpoch = s.ramEpoch := rfl
@[simp] theorem State.accept_draws (s : State) (c : Word) : (s.accept c).draws = s.draws + 1 := rfl
@[simp] theorem State.accept_host (s : State) (c : Word) : (s.accept c).host = s.host := rfl
@[simp] theorem State.accept_response (s : State) (c : Word) : (s.accept c).response = s.response := rfl

@[simp] theorem State.complete_cfg (s : State) (code : ErrCode) : (s.complete code).cfg = s.cfg := rfl
@[simp] theorem State.complete_engine (s : State) (code : ErrCode) : (s.complete code).engine = .idle := rfl
@[simp] theorem State.complete_doneIe (s : State) (code : ErrCode) : (s.complete code).doneIe = s.doneIe := rfl
@[simp] theorem State.complete_errIe (s : State) (code : ErrCode) : (s.complete code).errIe = s.errIe := rfl
@[simp] theorem State.complete_done (s : State) (code : ErrCode) : (s.complete code).done = true := rfl
@[simp] theorem State.complete_err (s : State) (code : ErrCode) : (s.complete code).err = if code = .ok then s.err else true := rfl
@[simp] theorem State.complete_cmdOverrun (s : State) (code : ErrCode) : (s.complete code).cmdOverrun = s.cmdOverrun := rfl
@[simp] theorem State.complete_busyWrite (s : State) (code : ErrCode) : (s.complete code).busyWrite = s.busyWrite := rfl
@[simp] theorem State.complete_tablesValid (s : State) (code : ErrCode) : (s.complete code).tablesValid = s.tablesValid := rfl
@[simp] theorem State.complete_errCode (s : State) (code : ErrCode) : (s.complete code).errCode = if code = .ok then s.errCode else code := rfl
@[simp] theorem State.complete_cmd (s : State) (code : ErrCode) : (s.complete code).cmd = s.cmd := rfl
@[simp] theorem State.complete_srcLen (s : State) (code : ErrCode) : (s.complete code).srcLen = s.srcLen := rfl
@[simp] theorem State.complete_tableSize (s : State) (code : ErrCode) : (s.complete code).tableSize = s.tableSize := rfl
@[simp] theorem State.complete_refRate (s : State) (code : ErrCode) : (s.complete code).refRate = s.refRate := rfl
@[simp] theorem State.complete_amplitude (s : State) (code : ErrCode) : (s.complete code).amplitude = s.amplitude := rfl
@[simp] theorem State.complete_cutoff (s : State) (code : ErrCode) : (s.complete code).cutoff = s.cutoff := rfl
@[simp] theorem State.complete_freq (s : State) (code : ErrCode) : (s.complete code).freq = s.freq := rfl
@[simp] theorem State.complete_index (s : State) (code : ErrCode) : (s.complete code).index = s.index := rfl
@[simp] theorem State.complete_specLen (s : State) (code : ErrCode) : (s.complete code).specLen = s.specLen := rfl
@[simp] theorem State.complete_result0 (s : State) (code : ErrCode) : (s.complete code).result0 = s.result0 := rfl
@[simp] theorem State.complete_result1 (s : State) (code : ErrCode) : (s.complete code).result1 = s.result1 := rfl
@[simp] theorem State.complete_resultIndex (s : State) (code : ErrCode) : (s.complete code).resultIndex = s.resultIndex := rfl
@[simp] theorem State.complete_harmCount (s : State) (code : ErrCode) : (s.complete code).harmCount = s.harmCount := rfl
@[simp] theorem State.complete_mem (s : State) (code : ErrCode) : (s.complete code).mem = s.mem := rfl
@[simp] theorem State.complete_ramEpoch (s : State) (code : ErrCode) : (s.complete code).ramEpoch = s.ramEpoch := rfl
@[simp] theorem State.complete_draws (s : State) (code : ErrCode) : (s.complete code).draws = s.draws := rfl
@[simp] theorem State.complete_host (s : State) (code : ErrCode) : (s.complete code).host = s.host := rfl
@[simp] theorem State.complete_response (s : State) (code : ErrCode) : (s.complete code).response = s.response := rfl

@[simp] theorem State.writeRam_cfg (s : State) (a : Nat) (ws : List Word) : (s.writeRam a ws).cfg = s.cfg := rfl
@[simp] theorem State.writeRam_engine (s : State) (a : Nat) (ws : List Word) : (s.writeRam a ws).engine = s.engine := rfl
@[simp] theorem State.writeRam_doneIe (s : State) (a : Nat) (ws : List Word) : (s.writeRam a ws).doneIe = s.doneIe := rfl
@[simp] theorem State.writeRam_errIe (s : State) (a : Nat) (ws : List Word) : (s.writeRam a ws).errIe = s.errIe := rfl
@[simp] theorem State.writeRam_done (s : State) (a : Nat) (ws : List Word) : (s.writeRam a ws).done = s.done := rfl
@[simp] theorem State.writeRam_err (s : State) (a : Nat) (ws : List Word) : (s.writeRam a ws).err = s.err := rfl
@[simp] theorem State.writeRam_cmdOverrun (s : State) (a : Nat) (ws : List Word) : (s.writeRam a ws).cmdOverrun = s.cmdOverrun := rfl
@[simp] theorem State.writeRam_busyWrite (s : State) (a : Nat) (ws : List Word) : (s.writeRam a ws).busyWrite = s.busyWrite := rfl
@[simp] theorem State.writeRam_tablesValid (s : State) (a : Nat) (ws : List Word) : (s.writeRam a ws).tablesValid = s.tablesValid := rfl
@[simp] theorem State.writeRam_errCode (s : State) (a : Nat) (ws : List Word) : (s.writeRam a ws).errCode = s.errCode := rfl
@[simp] theorem State.writeRam_cmd (s : State) (a : Nat) (ws : List Word) : (s.writeRam a ws).cmd = s.cmd := rfl
@[simp] theorem State.writeRam_srcLen (s : State) (a : Nat) (ws : List Word) : (s.writeRam a ws).srcLen = s.srcLen := rfl
@[simp] theorem State.writeRam_tableSize (s : State) (a : Nat) (ws : List Word) : (s.writeRam a ws).tableSize = s.tableSize := rfl
@[simp] theorem State.writeRam_refRate (s : State) (a : Nat) (ws : List Word) : (s.writeRam a ws).refRate = s.refRate := rfl
@[simp] theorem State.writeRam_amplitude (s : State) (a : Nat) (ws : List Word) : (s.writeRam a ws).amplitude = s.amplitude := rfl
@[simp] theorem State.writeRam_cutoff (s : State) (a : Nat) (ws : List Word) : (s.writeRam a ws).cutoff = s.cutoff := rfl
@[simp] theorem State.writeRam_freq (s : State) (a : Nat) (ws : List Word) : (s.writeRam a ws).freq = s.freq := rfl
@[simp] theorem State.writeRam_index (s : State) (a : Nat) (ws : List Word) : (s.writeRam a ws).index = s.index := rfl
@[simp] theorem State.writeRam_specLen (s : State) (a : Nat) (ws : List Word) : (s.writeRam a ws).specLen = s.specLen := rfl
@[simp] theorem State.writeRam_result0 (s : State) (a : Nat) (ws : List Word) : (s.writeRam a ws).result0 = s.result0 := rfl
@[simp] theorem State.writeRam_result1 (s : State) (a : Nat) (ws : List Word) : (s.writeRam a ws).result1 = s.result1 := rfl
@[simp] theorem State.writeRam_resultIndex (s : State) (a : Nat) (ws : List Word) : (s.writeRam a ws).resultIndex = s.resultIndex := rfl
@[simp] theorem State.writeRam_harmCount (s : State) (a : Nat) (ws : List Word) : (s.writeRam a ws).harmCount = s.harmCount := rfl
@[simp] theorem State.writeRam_mem (s : State) (a : Nat) (ws : List Word) : (s.writeRam a ws).mem = s.mem.writeWords a ws := rfl
@[simp] theorem State.writeRam_ramEpoch (s : State) (a : Nat) (ws : List Word) : (s.writeRam a ws).ramEpoch = s.ramEpoch := rfl
@[simp] theorem State.writeRam_draws (s : State) (a : Nat) (ws : List Word) : (s.writeRam a ws).draws = s.draws := rfl
@[simp] theorem State.writeRam_host (s : State) (a : Nat) (ws : List Word) : (s.writeRam a ws).host = s.host := rfl
@[simp] theorem State.writeRam_response (s : State) (a : Nat) (ws : List Word) : (s.writeRam a ws).response = s.response := rfl

@[simp] theorem State.writeStatus_cfg (s : State) (v : Word) : (s.writeStatus v).cfg = s.cfg := rfl
@[simp] theorem State.writeStatus_engine (s : State) (v : Word) : (s.writeStatus v).engine = s.engine := rfl
@[simp] theorem State.writeStatus_doneIe (s : State) (v : Word) : (s.writeStatus v).doneIe = s.doneIe := rfl
@[simp] theorem State.writeStatus_errIe (s : State) (v : Word) : (s.writeStatus v).errIe = s.errIe := rfl
@[simp] theorem State.writeStatus_done (s : State) (v : Word) : (s.writeStatus v).done = (s.done && !v.getLsbD 1) := rfl
@[simp] theorem State.writeStatus_err (s : State) (v : Word) : (s.writeStatus v).err = (s.err && !v.getLsbD 2) := rfl
@[simp] theorem State.writeStatus_cmdOverrun (s : State) (v : Word) : (s.writeStatus v).cmdOverrun = (s.cmdOverrun && !v.getLsbD 3) := rfl
@[simp] theorem State.writeStatus_busyWrite (s : State) (v : Word) : (s.writeStatus v).busyWrite = (s.busyWrite && !v.getLsbD 4) := rfl
@[simp] theorem State.writeStatus_tablesValid (s : State) (v : Word) : (s.writeStatus v).tablesValid = s.tablesValid := rfl
@[simp] theorem State.writeStatus_errCode (s : State) (v : Word) : (s.writeStatus v).errCode = if v.getLsbD 2 then .ok else s.errCode := rfl
@[simp] theorem State.writeStatus_cmd (s : State) (v : Word) : (s.writeStatus v).cmd = s.cmd := rfl
@[simp] theorem State.writeStatus_srcLen (s : State) (v : Word) : (s.writeStatus v).srcLen = s.srcLen := rfl
@[simp] theorem State.writeStatus_tableSize (s : State) (v : Word) : (s.writeStatus v).tableSize = s.tableSize := rfl
@[simp] theorem State.writeStatus_refRate (s : State) (v : Word) : (s.writeStatus v).refRate = s.refRate := rfl
@[simp] theorem State.writeStatus_amplitude (s : State) (v : Word) : (s.writeStatus v).amplitude = s.amplitude := rfl
@[simp] theorem State.writeStatus_cutoff (s : State) (v : Word) : (s.writeStatus v).cutoff = s.cutoff := rfl
@[simp] theorem State.writeStatus_freq (s : State) (v : Word) : (s.writeStatus v).freq = s.freq := rfl
@[simp] theorem State.writeStatus_index (s : State) (v : Word) : (s.writeStatus v).index = s.index := rfl
@[simp] theorem State.writeStatus_specLen (s : State) (v : Word) : (s.writeStatus v).specLen = s.specLen := rfl
@[simp] theorem State.writeStatus_result0 (s : State) (v : Word) : (s.writeStatus v).result0 = s.result0 := rfl
@[simp] theorem State.writeStatus_result1 (s : State) (v : Word) : (s.writeStatus v).result1 = s.result1 := rfl
@[simp] theorem State.writeStatus_resultIndex (s : State) (v : Word) : (s.writeStatus v).resultIndex = s.resultIndex := rfl
@[simp] theorem State.writeStatus_harmCount (s : State) (v : Word) : (s.writeStatus v).harmCount = s.harmCount := rfl
@[simp] theorem State.writeStatus_mem (s : State) (v : Word) : (s.writeStatus v).mem = s.mem := rfl
@[simp] theorem State.writeStatus_ramEpoch (s : State) (v : Word) : (s.writeStatus v).ramEpoch = s.ramEpoch := rfl
@[simp] theorem State.writeStatus_draws (s : State) (v : Word) : (s.writeStatus v).draws = s.draws := rfl
@[simp] theorem State.writeStatus_host (s : State) (v : Word) : (s.writeStatus v).host = s.host := rfl
@[simp] theorem State.writeStatus_response (s : State) (v : Word) : (s.writeStatus v).response = s.response := rfl

@[simp] theorem State.writeIrqEn_cfg (s : State) (v : Word) : (s.writeIrqEn v).cfg = s.cfg := rfl
@[simp] theorem State.writeIrqEn_engine (s : State) (v : Word) : (s.writeIrqEn v).engine = s.engine := rfl
@[simp] theorem State.writeIrqEn_doneIe (s : State) (v : Word) : (s.writeIrqEn v).doneIe = v.getLsbD 0 := rfl
@[simp] theorem State.writeIrqEn_errIe (s : State) (v : Word) : (s.writeIrqEn v).errIe = v.getLsbD 1 := rfl
@[simp] theorem State.writeIrqEn_done (s : State) (v : Word) : (s.writeIrqEn v).done = s.done := rfl
@[simp] theorem State.writeIrqEn_err (s : State) (v : Word) : (s.writeIrqEn v).err = s.err := rfl
@[simp] theorem State.writeIrqEn_cmdOverrun (s : State) (v : Word) : (s.writeIrqEn v).cmdOverrun = s.cmdOverrun := rfl
@[simp] theorem State.writeIrqEn_busyWrite (s : State) (v : Word) : (s.writeIrqEn v).busyWrite = s.busyWrite := rfl
@[simp] theorem State.writeIrqEn_tablesValid (s : State) (v : Word) : (s.writeIrqEn v).tablesValid = s.tablesValid := rfl
@[simp] theorem State.writeIrqEn_errCode (s : State) (v : Word) : (s.writeIrqEn v).errCode = s.errCode := rfl
@[simp] theorem State.writeIrqEn_cmd (s : State) (v : Word) : (s.writeIrqEn v).cmd = s.cmd := rfl
@[simp] theorem State.writeIrqEn_srcLen (s : State) (v : Word) : (s.writeIrqEn v).srcLen = s.srcLen := rfl
@[simp] theorem State.writeIrqEn_tableSize (s : State) (v : Word) : (s.writeIrqEn v).tableSize = s.tableSize := rfl
@[simp] theorem State.writeIrqEn_refRate (s : State) (v : Word) : (s.writeIrqEn v).refRate = s.refRate := rfl
@[simp] theorem State.writeIrqEn_amplitude (s : State) (v : Word) : (s.writeIrqEn v).amplitude = s.amplitude := rfl
@[simp] theorem State.writeIrqEn_cutoff (s : State) (v : Word) : (s.writeIrqEn v).cutoff = s.cutoff := rfl
@[simp] theorem State.writeIrqEn_freq (s : State) (v : Word) : (s.writeIrqEn v).freq = s.freq := rfl
@[simp] theorem State.writeIrqEn_index (s : State) (v : Word) : (s.writeIrqEn v).index = s.index := rfl
@[simp] theorem State.writeIrqEn_specLen (s : State) (v : Word) : (s.writeIrqEn v).specLen = s.specLen := rfl
@[simp] theorem State.writeIrqEn_result0 (s : State) (v : Word) : (s.writeIrqEn v).result0 = s.result0 := rfl
@[simp] theorem State.writeIrqEn_result1 (s : State) (v : Word) : (s.writeIrqEn v).result1 = s.result1 := rfl
@[simp] theorem State.writeIrqEn_resultIndex (s : State) (v : Word) : (s.writeIrqEn v).resultIndex = s.resultIndex := rfl
@[simp] theorem State.writeIrqEn_harmCount (s : State) (v : Word) : (s.writeIrqEn v).harmCount = s.harmCount := rfl
@[simp] theorem State.writeIrqEn_mem (s : State) (v : Word) : (s.writeIrqEn v).mem = s.mem := rfl
@[simp] theorem State.writeIrqEn_ramEpoch (s : State) (v : Word) : (s.writeIrqEn v).ramEpoch = s.ramEpoch := rfl
@[simp] theorem State.writeIrqEn_draws (s : State) (v : Word) : (s.writeIrqEn v).draws = s.draws := rfl
@[simp] theorem State.writeIrqEn_host (s : State) (v : Word) : (s.writeIrqEn v).host = s.host := rfl
@[simp] theorem State.writeIrqEn_response (s : State) (v : Word) : (s.writeIrqEn v).response = s.response := rfl

@[simp] theorem State.setIndex_cfg (s : State) (r : Word) : (s.setIndex r).cfg = s.cfg := rfl
@[simp] theorem State.setIndex_engine (s : State) (r : Word) : (s.setIndex r).engine = s.engine := rfl
@[simp] theorem State.setIndex_doneIe (s : State) (r : Word) : (s.setIndex r).doneIe = s.doneIe := rfl
@[simp] theorem State.setIndex_errIe (s : State) (r : Word) : (s.setIndex r).errIe = s.errIe := rfl
@[simp] theorem State.setIndex_done (s : State) (r : Word) : (s.setIndex r).done = s.done := rfl
@[simp] theorem State.setIndex_err (s : State) (r : Word) : (s.setIndex r).err = s.err := rfl
@[simp] theorem State.setIndex_cmdOverrun (s : State) (r : Word) : (s.setIndex r).cmdOverrun = s.cmdOverrun := rfl
@[simp] theorem State.setIndex_busyWrite (s : State) (r : Word) : (s.setIndex r).busyWrite = s.busyWrite := rfl
@[simp] theorem State.setIndex_tablesValid (s : State) (r : Word) : (s.setIndex r).tablesValid = s.tablesValid := rfl
@[simp] theorem State.setIndex_errCode (s : State) (r : Word) : (s.setIndex r).errCode = s.errCode := rfl
@[simp] theorem State.setIndex_cmd (s : State) (r : Word) : (s.setIndex r).cmd = s.cmd := rfl
@[simp] theorem State.setIndex_srcLen (s : State) (r : Word) : (s.setIndex r).srcLen = s.srcLen := rfl
@[simp] theorem State.setIndex_tableSize (s : State) (r : Word) : (s.setIndex r).tableSize = s.tableSize := rfl
@[simp] theorem State.setIndex_refRate (s : State) (r : Word) : (s.setIndex r).refRate = s.refRate := rfl
@[simp] theorem State.setIndex_amplitude (s : State) (r : Word) : (s.setIndex r).amplitude = s.amplitude := rfl
@[simp] theorem State.setIndex_cutoff (s : State) (r : Word) : (s.setIndex r).cutoff = s.cutoff := rfl
@[simp] theorem State.setIndex_freq (s : State) (r : Word) : (s.setIndex r).freq = s.freq := rfl
@[simp] theorem State.setIndex_index (s : State) (r : Word) : (s.setIndex r).index = s.index := rfl
@[simp] theorem State.setIndex_specLen (s : State) (r : Word) : (s.setIndex r).specLen = s.specLen := rfl
@[simp] theorem State.setIndex_result0 (s : State) (r : Word) : (s.setIndex r).result0 = r := rfl
@[simp] theorem State.setIndex_result1 (s : State) (r : Word) : (s.setIndex r).result1 = s.result1 := rfl
@[simp] theorem State.setIndex_resultIndex (s : State) (r : Word) : (s.setIndex r).resultIndex = BitVec.ofNat 32 (bandOfIndex r) := rfl
@[simp] theorem State.setIndex_harmCount (s : State) (r : Word) : (s.setIndex r).harmCount = s.harmCount := rfl
@[simp] theorem State.setIndex_mem (s : State) (r : Word) : (s.setIndex r).mem = s.mem := rfl
@[simp] theorem State.setIndex_ramEpoch (s : State) (r : Word) : (s.setIndex r).ramEpoch = s.ramEpoch := rfl
@[simp] theorem State.setIndex_draws (s : State) (r : Word) : (s.setIndex r).draws = s.draws := rfl
@[simp] theorem State.setIndex_host (s : State) (r : Word) : (s.setIndex r).host = s.host := rfl
@[simp] theorem State.setIndex_response (s : State) (r : Word) : (s.setIndex r).response = s.response := rfl

@[simp] theorem State.setRange_cfg (s : State) (o : Nat) : (s.setRange o).cfg = s.cfg := rfl
@[simp] theorem State.setRange_engine (s : State) (o : Nat) : (s.setRange o).engine = s.engine := rfl
@[simp] theorem State.setRange_doneIe (s : State) (o : Nat) : (s.setRange o).doneIe = s.doneIe := rfl
@[simp] theorem State.setRange_errIe (s : State) (o : Nat) : (s.setRange o).errIe = s.errIe := rfl
@[simp] theorem State.setRange_done (s : State) (o : Nat) : (s.setRange o).done = s.done := rfl
@[simp] theorem State.setRange_err (s : State) (o : Nat) : (s.setRange o).err = s.err := rfl
@[simp] theorem State.setRange_cmdOverrun (s : State) (o : Nat) : (s.setRange o).cmdOverrun = s.cmdOverrun := rfl
@[simp] theorem State.setRange_busyWrite (s : State) (o : Nat) : (s.setRange o).busyWrite = s.busyWrite := rfl
@[simp] theorem State.setRange_tablesValid (s : State) (o : Nat) : (s.setRange o).tablesValid = s.tablesValid := rfl
@[simp] theorem State.setRange_errCode (s : State) (o : Nat) : (s.setRange o).errCode = s.errCode := rfl
@[simp] theorem State.setRange_cmd (s : State) (o : Nat) : (s.setRange o).cmd = s.cmd := rfl
@[simp] theorem State.setRange_srcLen (s : State) (o : Nat) : (s.setRange o).srcLen = s.srcLen := rfl
@[simp] theorem State.setRange_tableSize (s : State) (o : Nat) : (s.setRange o).tableSize = s.tableSize := rfl
@[simp] theorem State.setRange_refRate (s : State) (o : Nat) : (s.setRange o).refRate = s.refRate := rfl
@[simp] theorem State.setRange_amplitude (s : State) (o : Nat) : (s.setRange o).amplitude = s.amplitude := rfl
@[simp] theorem State.setRange_cutoff (s : State) (o : Nat) : (s.setRange o).cutoff = s.cutoff := rfl
@[simp] theorem State.setRange_freq (s : State) (o : Nat) : (s.setRange o).freq = s.freq := rfl
@[simp] theorem State.setRange_index (s : State) (o : Nat) : (s.setRange o).index = s.index := rfl
@[simp] theorem State.setRange_specLen (s : State) (o : Nat) : (s.setRange o).specLen = s.specLen := rfl
@[simp] theorem State.setRange_result0 (s : State) (o : Nat) : (s.setRange o).result0 = sf o := rfl
@[simp] theorem State.setRange_result1 (s : State) (o : Nat) : (s.setRange o).result1 = sf (o + 1) := rfl
@[simp] theorem State.setRange_resultIndex (s : State) (o : Nat) : (s.setRange o).resultIndex = BitVec.ofNat 32 o := rfl
@[simp] theorem State.setRange_harmCount (s : State) (o : Nat) : (s.setRange o).harmCount = s.harmCount := rfl
@[simp] theorem State.setRange_mem (s : State) (o : Nat) : (s.setRange o).mem = s.mem := rfl
@[simp] theorem State.setRange_ramEpoch (s : State) (o : Nat) : (s.setRange o).ramEpoch = s.ramEpoch := rfl
@[simp] theorem State.setRange_draws (s : State) (o : Nat) : (s.setRange o).draws = s.draws := rfl
@[simp] theorem State.setRange_host (s : State) (o : Nat) : (s.setRange o).host = s.host := rfl
@[simp] theorem State.setRange_response (s : State) (o : Nat) : (s.setRange o).response = s.response := rfl

@[simp] theorem State.storeProfile_cfg (s : State) (H : List (Word × Word)) : (s.storeProfile H).cfg = s.cfg := rfl
@[simp] theorem State.storeProfile_engine (s : State) (H : List (Word × Word)) : (s.storeProfile H).engine = s.engine := rfl
@[simp] theorem State.storeProfile_doneIe (s : State) (H : List (Word × Word)) : (s.storeProfile H).doneIe = s.doneIe := rfl
@[simp] theorem State.storeProfile_errIe (s : State) (H : List (Word × Word)) : (s.storeProfile H).errIe = s.errIe := rfl
@[simp] theorem State.storeProfile_done (s : State) (H : List (Word × Word)) : (s.storeProfile H).done = s.done := rfl
@[simp] theorem State.storeProfile_err (s : State) (H : List (Word × Word)) : (s.storeProfile H).err = s.err := rfl
@[simp] theorem State.storeProfile_cmdOverrun (s : State) (H : List (Word × Word)) : (s.storeProfile H).cmdOverrun = s.cmdOverrun := rfl
@[simp] theorem State.storeProfile_busyWrite (s : State) (H : List (Word × Word)) : (s.storeProfile H).busyWrite = s.busyWrite := rfl
@[simp] theorem State.storeProfile_tablesValid (s : State) (H : List (Word × Word)) : (s.storeProfile H).tablesValid = s.tablesValid := rfl
@[simp] theorem State.storeProfile_errCode (s : State) (H : List (Word × Word)) : (s.storeProfile H).errCode = s.errCode := rfl
@[simp] theorem State.storeProfile_cmd (s : State) (H : List (Word × Word)) : (s.storeProfile H).cmd = s.cmd := rfl
@[simp] theorem State.storeProfile_srcLen (s : State) (H : List (Word × Word)) : (s.storeProfile H).srcLen = s.srcLen := rfl
@[simp] theorem State.storeProfile_tableSize (s : State) (H : List (Word × Word)) : (s.storeProfile H).tableSize = s.tableSize := rfl
@[simp] theorem State.storeProfile_refRate (s : State) (H : List (Word × Word)) : (s.storeProfile H).refRate = s.refRate := rfl
@[simp] theorem State.storeProfile_amplitude (s : State) (H : List (Word × Word)) : (s.storeProfile H).amplitude = s.amplitude := rfl
@[simp] theorem State.storeProfile_cutoff (s : State) (H : List (Word × Word)) : (s.storeProfile H).cutoff = s.cutoff := rfl
@[simp] theorem State.storeProfile_freq (s : State) (H : List (Word × Word)) : (s.storeProfile H).freq = s.freq := rfl
@[simp] theorem State.storeProfile_index (s : State) (H : List (Word × Word)) : (s.storeProfile H).index = s.index := rfl
@[simp] theorem State.storeProfile_specLen (s : State) (H : List (Word × Word)) : (s.storeProfile H).specLen = BitVec.ofNat 32 H.length := rfl
@[simp] theorem State.storeProfile_result0 (s : State) (H : List (Word × Word)) : (s.storeProfile H).result0 = s.result0 := rfl
@[simp] theorem State.storeProfile_result1 (s : State) (H : List (Word × Word)) : (s.storeProfile H).result1 = s.result1 := rfl
@[simp] theorem State.storeProfile_resultIndex (s : State) (H : List (Word × Word)) : (s.storeProfile H).resultIndex = s.resultIndex := rfl
@[simp] theorem State.storeProfile_harmCount (s : State) (H : List (Word × Word)) : (s.storeProfile H).harmCount = s.harmCount := rfl
@[simp] theorem State.storeProfile_mem (s : State) (H : List (Word × Word)) : (s.storeProfile H).mem = s.mem.writeWords (specOffset 0) (specWords H) := rfl
@[simp] theorem State.storeProfile_ramEpoch (s : State) (H : List (Word × Word)) : (s.storeProfile H).ramEpoch = s.ramEpoch := rfl
@[simp] theorem State.storeProfile_draws (s : State) (H : List (Word × Word)) : (s.storeProfile H).draws = s.draws := rfl
@[simp] theorem State.storeProfile_host (s : State) (H : List (Word × Word)) : (s.storeProfile H).host = s.host := rfl
@[simp] theorem State.storeProfile_response (s : State) (H : List (Word × Word)) : (s.storeProfile H).response = s.response := rfl

@[simp] theorem State.storeRow_cfg (s : State) (M m : Nat) (row : List Word) (K : Nat) : (s.storeRow M m row K).cfg = s.cfg := rfl
@[simp] theorem State.storeRow_engine (s : State) (M m : Nat) (row : List Word) (K : Nat) : (s.storeRow M m row K).engine = s.engine := rfl
@[simp] theorem State.storeRow_doneIe (s : State) (M m : Nat) (row : List Word) (K : Nat) : (s.storeRow M m row K).doneIe = s.doneIe := rfl
@[simp] theorem State.storeRow_errIe (s : State) (M m : Nat) (row : List Word) (K : Nat) : (s.storeRow M m row K).errIe = s.errIe := rfl
@[simp] theorem State.storeRow_done (s : State) (M m : Nat) (row : List Word) (K : Nat) : (s.storeRow M m row K).done = s.done := rfl
@[simp] theorem State.storeRow_err (s : State) (M m : Nat) (row : List Word) (K : Nat) : (s.storeRow M m row K).err = s.err := rfl
@[simp] theorem State.storeRow_cmdOverrun (s : State) (M m : Nat) (row : List Word) (K : Nat) : (s.storeRow M m row K).cmdOverrun = s.cmdOverrun := rfl
@[simp] theorem State.storeRow_busyWrite (s : State) (M m : Nat) (row : List Word) (K : Nat) : (s.storeRow M m row K).busyWrite = s.busyWrite := rfl
@[simp] theorem State.storeRow_tablesValid (s : State) (M m : Nat) (row : List Word) (K : Nat) : (s.storeRow M m row K).tablesValid = false := rfl
@[simp] theorem State.storeRow_errCode (s : State) (M m : Nat) (row : List Word) (K : Nat) : (s.storeRow M m row K).errCode = s.errCode := rfl
@[simp] theorem State.storeRow_cmd (s : State) (M m : Nat) (row : List Word) (K : Nat) : (s.storeRow M m row K).cmd = s.cmd := rfl
@[simp] theorem State.storeRow_srcLen (s : State) (M m : Nat) (row : List Word) (K : Nat) : (s.storeRow M m row K).srcLen = s.srcLen := rfl
@[simp] theorem State.storeRow_tableSize (s : State) (M m : Nat) (row : List Word) (K : Nat) : (s.storeRow M m row K).tableSize = s.tableSize := rfl
@[simp] theorem State.storeRow_refRate (s : State) (M m : Nat) (row : List Word) (K : Nat) : (s.storeRow M m row K).refRate = s.refRate := rfl
@[simp] theorem State.storeRow_amplitude (s : State) (M m : Nat) (row : List Word) (K : Nat) : (s.storeRow M m row K).amplitude = s.amplitude := rfl
@[simp] theorem State.storeRow_cutoff (s : State) (M m : Nat) (row : List Word) (K : Nat) : (s.storeRow M m row K).cutoff = s.cutoff := rfl
@[simp] theorem State.storeRow_freq (s : State) (M m : Nat) (row : List Word) (K : Nat) : (s.storeRow M m row K).freq = s.freq := rfl
@[simp] theorem State.storeRow_index (s : State) (M m : Nat) (row : List Word) (K : Nat) : (s.storeRow M m row K).index = s.index := rfl
@[simp] theorem State.storeRow_specLen (s : State) (M m : Nat) (row : List Word) (K : Nat) : (s.storeRow M m row K).specLen = s.specLen := rfl
@[simp] theorem State.storeRow_result0 (s : State) (M m : Nat) (row : List Word) (K : Nat) : (s.storeRow M m row K).result0 = s.result0 := rfl
@[simp] theorem State.storeRow_result1 (s : State) (M m : Nat) (row : List Word) (K : Nat) : (s.storeRow M m row K).result1 = s.result1 := rfl
@[simp] theorem State.storeRow_resultIndex (s : State) (M m : Nat) (row : List Word) (K : Nat) : (s.storeRow M m row K).resultIndex = s.resultIndex := rfl
@[simp] theorem State.storeRow_harmCount (s : State) (M m : Nat) (row : List Word) (K : Nat) : (s.storeRow M m row K).harmCount = BitVec.ofNat 32 K := rfl
@[simp] theorem State.storeRow_mem (s : State) (M m : Nat) (row : List Word) (K : Nat) : (s.storeRow M m row K).mem = s.mem.writeWords (rowOffset M m extra) row := rfl
@[simp] theorem State.storeRow_ramEpoch (s : State) (M m : Nat) (row : List Word) (K : Nat) : (s.storeRow M m row K).ramEpoch = s.ramEpoch := rfl
@[simp] theorem State.storeRow_draws (s : State) (M m : Nat) (row : List Word) (K : Nat) : (s.storeRow M m row K).draws = s.draws := rfl
@[simp] theorem State.storeRow_host (s : State) (M m : Nat) (row : List Word) (K : Nat) : (s.storeRow M m row K).host = s.host := rfl
@[simp] theorem State.storeRow_response (s : State) (M m : Nat) (row : List Word) (K : Nat) : (s.storeRow M m row K).response = s.response := rfl

@[simp] theorem State.padRow_cfg (s src : State) (M m : Nat) : (s.padRow src M m).cfg = s.cfg := rfl
@[simp] theorem State.padRow_engine (s src : State) (M m : Nat) : (s.padRow src M m).engine = s.engine := rfl
@[simp] theorem State.padRow_doneIe (s src : State) (M m : Nat) : (s.padRow src M m).doneIe = s.doneIe := rfl
@[simp] theorem State.padRow_errIe (s src : State) (M m : Nat) : (s.padRow src M m).errIe = s.errIe := rfl
@[simp] theorem State.padRow_done (s src : State) (M m : Nat) : (s.padRow src M m).done = s.done := rfl
@[simp] theorem State.padRow_err (s src : State) (M m : Nat) : (s.padRow src M m).err = s.err := rfl
@[simp] theorem State.padRow_cmdOverrun (s src : State) (M m : Nat) : (s.padRow src M m).cmdOverrun = s.cmdOverrun := rfl
@[simp] theorem State.padRow_busyWrite (s src : State) (M m : Nat) : (s.padRow src M m).busyWrite = s.busyWrite := rfl
@[simp] theorem State.padRow_tablesValid (s src : State) (M m : Nat) : (s.padRow src M m).tablesValid = s.tablesValid := rfl
@[simp] theorem State.padRow_errCode (s src : State) (M m : Nat) : (s.padRow src M m).errCode = s.errCode := rfl
@[simp] theorem State.padRow_cmd (s src : State) (M m : Nat) : (s.padRow src M m).cmd = s.cmd := rfl
@[simp] theorem State.padRow_srcLen (s src : State) (M m : Nat) : (s.padRow src M m).srcLen = s.srcLen := rfl
@[simp] theorem State.padRow_tableSize (s src : State) (M m : Nat) : (s.padRow src M m).tableSize = s.tableSize := rfl
@[simp] theorem State.padRow_refRate (s src : State) (M m : Nat) : (s.padRow src M m).refRate = s.refRate := rfl
@[simp] theorem State.padRow_amplitude (s src : State) (M m : Nat) : (s.padRow src M m).amplitude = s.amplitude := rfl
@[simp] theorem State.padRow_cutoff (s src : State) (M m : Nat) : (s.padRow src M m).cutoff = s.cutoff := rfl
@[simp] theorem State.padRow_freq (s src : State) (M m : Nat) : (s.padRow src M m).freq = s.freq := rfl
@[simp] theorem State.padRow_index (s src : State) (M m : Nat) : (s.padRow src M m).index = s.index := rfl
@[simp] theorem State.padRow_specLen (s src : State) (M m : Nat) : (s.padRow src M m).specLen = s.specLen := rfl
@[simp] theorem State.padRow_result0 (s src : State) (M m : Nat) : (s.padRow src M m).result0 = s.result0 := rfl
@[simp] theorem State.padRow_result1 (s src : State) (M m : Nat) : (s.padRow src M m).result1 = s.result1 := rfl
@[simp] theorem State.padRow_resultIndex (s src : State) (M m : Nat) : (s.padRow src M m).resultIndex = s.resultIndex := rfl
@[simp] theorem State.padRow_harmCount (s src : State) (M m : Nat) : (s.padRow src M m).harmCount = s.harmCount := rfl
@[simp] theorem State.padRow_mem (s src : State) (M m : Nat) : (s.padRow src M m).mem = (s.mem.writeWords (rowOffset M m 0) (src.words (rowOffset M m M) extra)).writeWords
      (rowOffset M m (M + extra)) (src.words (rowOffset M m extra) extra) := rfl
@[simp] theorem State.padRow_ramEpoch (s src : State) (M m : Nat) : (s.padRow src M m).ramEpoch = s.ramEpoch := rfl
@[simp] theorem State.padRow_draws (s src : State) (M m : Nat) : (s.padRow src M m).draws = s.draws := rfl
@[simp] theorem State.padRow_host (s src : State) (M m : Nat) : (s.padRow src M m).host = s.host := rfl
@[simp] theorem State.padRow_response (s src : State) (M m : Nat) : (s.padRow src M m).response = s.response := rfl

@[simp] theorem State.storeTables_cfg (s : State) (M : Nat) (R : Word) (rows : List (List Word)) : (s.storeTables M R rows).cfg = s.cfg := rfl
@[simp] theorem State.storeTables_engine (s : State) (M : Nat) (R : Word) (rows : List (List Word)) : (s.storeTables M R rows).engine = s.engine := rfl
@[simp] theorem State.storeTables_doneIe (s : State) (M : Nat) (R : Word) (rows : List (List Word)) : (s.storeTables M R rows).doneIe = s.doneIe := rfl
@[simp] theorem State.storeTables_errIe (s : State) (M : Nat) (R : Word) (rows : List (List Word)) : (s.storeTables M R rows).errIe = s.errIe := rfl
@[simp] theorem State.storeTables_done (s : State) (M : Nat) (R : Word) (rows : List (List Word)) : (s.storeTables M R rows).done = s.done := rfl
@[simp] theorem State.storeTables_err (s : State) (M : Nat) (R : Word) (rows : List (List Word)) : (s.storeTables M R rows).err = s.err := rfl
@[simp] theorem State.storeTables_cmdOverrun (s : State) (M : Nat) (R : Word) (rows : List (List Word)) : (s.storeTables M R rows).cmdOverrun = s.cmdOverrun := rfl
@[simp] theorem State.storeTables_busyWrite (s : State) (M : Nat) (R : Word) (rows : List (List Word)) : (s.storeTables M R rows).busyWrite = s.busyWrite := rfl
@[simp] theorem State.storeTables_tablesValid (s : State) (M : Nat) (R : Word) (rows : List (List Word)) : (s.storeTables M R rows).tablesValid = true := rfl
@[simp] theorem State.storeTables_errCode (s : State) (M : Nat) (R : Word) (rows : List (List Word)) : (s.storeTables M R rows).errCode = s.errCode := rfl
@[simp] theorem State.storeTables_cmd (s : State) (M : Nat) (R : Word) (rows : List (List Word)) : (s.storeTables M R rows).cmd = s.cmd := rfl
@[simp] theorem State.storeTables_srcLen (s : State) (M : Nat) (R : Word) (rows : List (List Word)) : (s.storeTables M R rows).srcLen = s.srcLen := rfl
@[simp] theorem State.storeTables_tableSize (s : State) (M : Nat) (R : Word) (rows : List (List Word)) : (s.storeTables M R rows).tableSize = s.tableSize := rfl
@[simp] theorem State.storeTables_refRate (s : State) (M : Nat) (R : Word) (rows : List (List Word)) : (s.storeTables M R rows).refRate = s.refRate := rfl
@[simp] theorem State.storeTables_amplitude (s : State) (M : Nat) (R : Word) (rows : List (List Word)) : (s.storeTables M R rows).amplitude = s.amplitude := rfl
@[simp] theorem State.storeTables_cutoff (s : State) (M : Nat) (R : Word) (rows : List (List Word)) : (s.storeTables M R rows).cutoff = s.cutoff := rfl
@[simp] theorem State.storeTables_freq (s : State) (M : Nat) (R : Word) (rows : List (List Word)) : (s.storeTables M R rows).freq = s.freq := rfl
@[simp] theorem State.storeTables_index (s : State) (M : Nat) (R : Word) (rows : List (List Word)) : (s.storeTables M R rows).index = s.index := rfl
@[simp] theorem State.storeTables_specLen (s : State) (M : Nat) (R : Word) (rows : List (List Word)) : (s.storeTables M R rows).specLen = s.specLen := rfl
@[simp] theorem State.storeTables_result0 (s : State) (M : Nat) (R : Word) (rows : List (List Word)) : (s.storeTables M R rows).result0 = s.result0 := rfl
@[simp] theorem State.storeTables_result1 (s : State) (M : Nat) (R : Word) (rows : List (List Word)) : (s.storeTables M R rows).result1 = s.result1 := rfl
@[simp] theorem State.storeTables_resultIndex (s : State) (M : Nat) (R : Word) (rows : List (List Word)) : (s.storeTables M R rows).resultIndex = s.resultIndex := rfl
@[simp] theorem State.storeTables_harmCount (s : State) (M : Nat) (R : Word) (rows : List (List Word)) : (s.storeTables M R rows).harmCount = BitVec.ofNat 32 (gateCount (cut 23 M R).1 M) := rfl
@[simp] theorem State.storeTables_mem (s : State) (M : Nat) (R : Word) (rows : List (List Word)) : (s.storeTables M R rows).mem = s.mem.writeWords (tabOffset 0) (rows.flatMap paddedRow) := rfl
@[simp] theorem State.storeTables_ramEpoch (s : State) (M : Nat) (R : Word) (rows : List (List Word)) : (s.storeTables M R rows).ramEpoch = s.ramEpoch := rfl
@[simp] theorem State.storeTables_draws (s : State) (M : Nat) (R : Word) (rows : List (List Word)) : (s.storeTables M R rows).draws = s.draws := rfl
@[simp] theorem State.storeTables_host (s : State) (M : Nat) (R : Word) (rows : List (List Word)) : (s.storeTables M R rows).host = s.host := rfl
@[simp] theorem State.storeTables_response (s : State) (M : Nat) (R : Word) (rows : List (List Word)) : (s.storeTables M R rows).response = s.response := rfl

@[simp] theorem State.placeCommand_cfg (s : State) (c : Word) : (s.placeCommand c).cfg = s.cfg := rfl
@[simp] theorem State.placeCommand_engine (s : State) (c : Word) : (s.placeCommand c).engine = .busy 0 := rfl
@[simp] theorem State.placeCommand_doneIe (s : State) (c : Word) : (s.placeCommand c).doneIe = s.doneIe := rfl
@[simp] theorem State.placeCommand_errIe (s : State) (c : Word) : (s.placeCommand c).errIe = s.errIe := rfl
@[simp] theorem State.placeCommand_done (s : State) (c : Word) : (s.placeCommand c).done = false := rfl
@[simp] theorem State.placeCommand_err (s : State) (c : Word) : (s.placeCommand c).err = false := rfl
@[simp] theorem State.placeCommand_cmdOverrun (s : State) (c : Word) : (s.placeCommand c).cmdOverrun = s.cmdOverrun := rfl
@[simp] theorem State.placeCommand_busyWrite (s : State) (c : Word) : (s.placeCommand c).busyWrite = s.busyWrite := rfl
@[simp] theorem State.placeCommand_tablesValid (s : State) (c : Word) : (s.placeCommand c).tablesValid = s.tablesValid := rfl
@[simp] theorem State.placeCommand_errCode (s : State) (c : Word) : (s.placeCommand c).errCode = .ok := rfl
@[simp] theorem State.placeCommand_cmd (s : State) (c : Word) : (s.placeCommand c).cmd = c := rfl
@[simp] theorem State.placeCommand_srcLen (s : State) (c : Word) : (s.placeCommand c).srcLen = s.srcLen := rfl
@[simp] theorem State.placeCommand_tableSize (s : State) (c : Word) : (s.placeCommand c).tableSize = s.tableSize := rfl
@[simp] theorem State.placeCommand_refRate (s : State) (c : Word) : (s.placeCommand c).refRate = s.refRate := rfl
@[simp] theorem State.placeCommand_amplitude (s : State) (c : Word) : (s.placeCommand c).amplitude = s.amplitude := rfl
@[simp] theorem State.placeCommand_cutoff (s : State) (c : Word) : (s.placeCommand c).cutoff = s.cutoff := rfl
@[simp] theorem State.placeCommand_freq (s : State) (c : Word) : (s.placeCommand c).freq = s.freq := rfl
@[simp] theorem State.placeCommand_index (s : State) (c : Word) : (s.placeCommand c).index = s.index := rfl
@[simp] theorem State.placeCommand_specLen (s : State) (c : Word) : (s.placeCommand c).specLen = s.specLen := rfl
@[simp] theorem State.placeCommand_result0 (s : State) (c : Word) : (s.placeCommand c).result0 = s.result0 := rfl
@[simp] theorem State.placeCommand_result1 (s : State) (c : Word) : (s.placeCommand c).result1 = s.result1 := rfl
@[simp] theorem State.placeCommand_resultIndex (s : State) (c : Word) : (s.placeCommand c).resultIndex = s.resultIndex := rfl
@[simp] theorem State.placeCommand_harmCount (s : State) (c : Word) : (s.placeCommand c).harmCount = s.harmCount := rfl
@[simp] theorem State.placeCommand_mem (s : State) (c : Word) : (s.placeCommand c).mem = s.mem := rfl
@[simp] theorem State.placeCommand_ramEpoch (s : State) (c : Word) : (s.placeCommand c).ramEpoch = s.ramEpoch := rfl
@[simp] theorem State.placeCommand_draws (s : State) (c : Word) : (s.placeCommand c).draws = s.draws := rfl
@[simp] theorem State.placeCommand_host (s : State) (c : Word) : (s.placeCommand c).host = s.host := rfl
@[simp] theorem State.placeCommand_response (s : State) (c : Word) : (s.placeCommand c).response = s.response := rfl

@[simp] theorem State.completedWith_cfg (s : State) (code : ErrCode) : (s.completedWith code).cfg = s.cfg := rfl
@[simp] theorem State.completedWith_engine (s : State) (code : ErrCode) : (s.completedWith code).engine = .idle := rfl
@[simp] theorem State.completedWith_doneIe (s : State) (code : ErrCode) : (s.completedWith code).doneIe = s.doneIe := rfl
@[simp] theorem State.completedWith_errIe (s : State) (code : ErrCode) : (s.completedWith code).errIe = s.errIe := rfl
@[simp] theorem State.completedWith_done (s : State) (code : ErrCode) : (s.completedWith code).done = true := rfl
@[simp] theorem State.completedWith_err (s : State) (code : ErrCode) : (s.completedWith code).err = true := rfl
@[simp] theorem State.completedWith_cmdOverrun (s : State) (code : ErrCode) : (s.completedWith code).cmdOverrun = s.cmdOverrun := rfl
@[simp] theorem State.completedWith_busyWrite (s : State) (code : ErrCode) : (s.completedWith code).busyWrite = s.busyWrite := rfl
@[simp] theorem State.completedWith_tablesValid (s : State) (code : ErrCode) : (s.completedWith code).tablesValid = s.tablesValid := rfl
@[simp] theorem State.completedWith_errCode (s : State) (code : ErrCode) : (s.completedWith code).errCode = code := rfl
@[simp] theorem State.completedWith_cmd (s : State) (code : ErrCode) : (s.completedWith code).cmd = s.cmd := rfl
@[simp] theorem State.completedWith_srcLen (s : State) (code : ErrCode) : (s.completedWith code).srcLen = s.srcLen := rfl
@[simp] theorem State.completedWith_tableSize (s : State) (code : ErrCode) : (s.completedWith code).tableSize = s.tableSize := rfl
@[simp] theorem State.completedWith_refRate (s : State) (code : ErrCode) : (s.completedWith code).refRate = s.refRate := rfl
@[simp] theorem State.completedWith_amplitude (s : State) (code : ErrCode) : (s.completedWith code).amplitude = s.amplitude := rfl
@[simp] theorem State.completedWith_cutoff (s : State) (code : ErrCode) : (s.completedWith code).cutoff = s.cutoff := rfl
@[simp] theorem State.completedWith_freq (s : State) (code : ErrCode) : (s.completedWith code).freq = s.freq := rfl
@[simp] theorem State.completedWith_index (s : State) (code : ErrCode) : (s.completedWith code).index = s.index := rfl
@[simp] theorem State.completedWith_specLen (s : State) (code : ErrCode) : (s.completedWith code).specLen = s.specLen := rfl
@[simp] theorem State.completedWith_result0 (s : State) (code : ErrCode) : (s.completedWith code).result0 = s.result0 := rfl
@[simp] theorem State.completedWith_result1 (s : State) (code : ErrCode) : (s.completedWith code).result1 = s.result1 := rfl
@[simp] theorem State.completedWith_resultIndex (s : State) (code : ErrCode) : (s.completedWith code).resultIndex = s.resultIndex := rfl
@[simp] theorem State.completedWith_harmCount (s : State) (code : ErrCode) : (s.completedWith code).harmCount = s.harmCount := rfl
@[simp] theorem State.completedWith_mem (s : State) (code : ErrCode) : (s.completedWith code).mem = s.mem := rfl
@[simp] theorem State.completedWith_ramEpoch (s : State) (code : ErrCode) : (s.completedWith code).ramEpoch = s.ramEpoch := rfl
@[simp] theorem State.completedWith_draws (s : State) (code : ErrCode) : (s.completedWith code).draws = s.draws := rfl
@[simp] theorem State.completedWith_host (s : State) (code : ErrCode) : (s.completedWith code).host = s.host := rfl
@[simp] theorem State.completedWith_response (s : State) (code : ErrCode) : (s.completedWith code).response = s.response := rfl

@[simp] theorem State.resetRegisters_cfg (s : State) : (s.resetRegisters).cfg = s.cfg := rfl
@[simp] theorem State.resetRegisters_engine (s : State) : (s.resetRegisters).engine = .idle := rfl
@[simp] theorem State.resetRegisters_doneIe (s : State) : (s.resetRegisters).doneIe = false := rfl
@[simp] theorem State.resetRegisters_errIe (s : State) : (s.resetRegisters).errIe = false := rfl
@[simp] theorem State.resetRegisters_done (s : State) : (s.resetRegisters).done = false := rfl
@[simp] theorem State.resetRegisters_err (s : State) : (s.resetRegisters).err = false := rfl
@[simp] theorem State.resetRegisters_cmdOverrun (s : State) : (s.resetRegisters).cmdOverrun = false := rfl
@[simp] theorem State.resetRegisters_busyWrite (s : State) : (s.resetRegisters).busyWrite = false := rfl
@[simp] theorem State.resetRegisters_tablesValid (s : State) : (s.resetRegisters).tablesValid = false := rfl
@[simp] theorem State.resetRegisters_errCode (s : State) : (s.resetRegisters).errCode = .ok := rfl
@[simp] theorem State.resetRegisters_cmd (s : State) : (s.resetRegisters).cmd = 0x00000000#32 := rfl
@[simp] theorem State.resetRegisters_srcLen (s : State) : (s.resetRegisters).srcLen = 0x00000000#32 := rfl
@[simp] theorem State.resetRegisters_tableSize (s : State) : (s.resetRegisters).tableSize = 0x00000800#32 := rfl
@[simp] theorem State.resetRegisters_refRate (s : State) : (s.resetRegisters).refRate = 0x472C4400#32 := rfl
@[simp] theorem State.resetRegisters_amplitude (s : State) : (s.resetRegisters).amplitude = 0x3F800000#32 := rfl
@[simp] theorem State.resetRegisters_cutoff (s : State) : (s.resetRegisters).cutoff = 0x00000000#32 := rfl
@[simp] theorem State.resetRegisters_freq (s : State) : (s.resetRegisters).freq = 0x00000000#32 := rfl
@[simp] theorem State.resetRegisters_index (s : State) : (s.resetRegisters).index = 0x00000000#32 := rfl
@[simp] theorem State.resetRegisters_specLen (s : State) : (s.resetRegisters).specLen = 0x00000000#32 := rfl
@[simp] theorem State.resetRegisters_result0 (s : State) : (s.resetRegisters).result0 = 0x00000000#32 := rfl
@[simp] theorem State.resetRegisters_result1 (s : State) : (s.resetRegisters).result1 = 0x00000000#32 := rfl
@[simp] theorem State.resetRegisters_resultIndex (s : State) : (s.resetRegisters).resultIndex = 0x00000000#32 := rfl
@[simp] theorem State.resetRegisters_harmCount (s : State) : (s.resetRegisters).harmCount = 0x00000000#32 := rfl
@[simp] theorem State.resetRegisters_mem (s : State) : (s.resetRegisters).mem = s.mem := rfl
@[simp] theorem State.resetRegisters_ramEpoch (s : State) : (s.resetRegisters).ramEpoch = s.ramEpoch := rfl
@[simp] theorem State.resetRegisters_draws (s : State) : (s.resetRegisters).draws = s.draws := rfl
@[simp] theorem State.resetRegisters_host (s : State) : (s.resetRegisters).host = s.host := rfl
@[simp] theorem State.resetRegisters_response (s : State) : (s.resetRegisters).response = s.response := rfl

@[simp] theorem State.hardReset_cfg (s : State) : (s.hardReset).cfg = s.cfg := rfl
@[simp] theorem State.hardReset_engine (s : State) : (s.hardReset).engine = .idle := rfl
@[simp] theorem State.hardReset_doneIe (s : State) : (s.hardReset).doneIe = false := rfl
@[simp] theorem State.hardReset_errIe (s : State) : (s.hardReset).errIe = false := rfl
@[simp] theorem State.hardReset_done (s : State) : (s.hardReset).done = false := rfl
@[simp] theorem State.hardReset_err (s : State) : (s.hardReset).err = false := rfl
@[simp] theorem State.hardReset_cmdOverrun (s : State) : (s.hardReset).cmdOverrun = false := rfl
@[simp] theorem State.hardReset_busyWrite (s : State) : (s.hardReset).busyWrite = false := rfl
@[simp] theorem State.hardReset_tablesValid (s : State) : (s.hardReset).tablesValid = false := rfl
@[simp] theorem State.hardReset_errCode (s : State) : (s.hardReset).errCode = .ok := rfl
@[simp] theorem State.hardReset_cmd (s : State) : (s.hardReset).cmd = 0x00000000#32 := rfl
@[simp] theorem State.hardReset_srcLen (s : State) : (s.hardReset).srcLen = 0x00000000#32 := rfl
@[simp] theorem State.hardReset_tableSize (s : State) : (s.hardReset).tableSize = 0x00000800#32 := rfl
@[simp] theorem State.hardReset_refRate (s : State) : (s.hardReset).refRate = 0x472C4400#32 := rfl
@[simp] theorem State.hardReset_amplitude (s : State) : (s.hardReset).amplitude = 0x3F800000#32 := rfl
@[simp] theorem State.hardReset_cutoff (s : State) : (s.hardReset).cutoff = 0x00000000#32 := rfl
@[simp] theorem State.hardReset_freq (s : State) : (s.hardReset).freq = 0x00000000#32 := rfl
@[simp] theorem State.hardReset_index (s : State) : (s.hardReset).index = 0x00000000#32 := rfl
@[simp] theorem State.hardReset_specLen (s : State) : (s.hardReset).specLen = 0x00000000#32 := rfl
@[simp] theorem State.hardReset_result0 (s : State) : (s.hardReset).result0 = 0x00000000#32 := rfl
@[simp] theorem State.hardReset_result1 (s : State) : (s.hardReset).result1 = 0x00000000#32 := rfl
@[simp] theorem State.hardReset_resultIndex (s : State) : (s.hardReset).resultIndex = 0x00000000#32 := rfl
@[simp] theorem State.hardReset_harmCount (s : State) : (s.hardReset).harmCount = 0x00000000#32 := rfl
@[simp] theorem State.hardReset_mem (s : State) : (s.hardReset).mem = ⟨[]⟩ := rfl
@[simp] theorem State.hardReset_ramEpoch (s : State) : (s.hardReset).ramEpoch = s.draws := rfl
@[simp] theorem State.hardReset_draws (s : State) : (s.hardReset).draws = s.draws + 1 := rfl
@[simp] theorem State.hardReset_host (s : State) : (s.hardReset).host = s.host := rfl
@[simp] theorem State.hardReset_response (s : State) : (s.hardReset).response = none := rfl

end Sys2Proof.Machine
end

