-- ==== Sys2Proof/Laws/Ops.lean ====
section
/-!
SUPPORT. One lemma for each shared operation that says everything it can answer: the end of a command, the operand checks, one
row, the rows of a build, a BOUNDED output, the decoder's order of checks, and one step.
-/

namespace Sys2Proof.Machine

/-! ## The end of a command -/

/-- Whatever a command comes to, it answers a next state: its writes completed, or its own state completed with a code. -/
theorem finish_cases (s t : State) (r : Except ErrCode State) (h : s.finish r = .next t) :
    (∃ u, r = .ok u ∧ t = u.complete .ok) ∨ (∃ code, r = .error code ∧ t = s.complete code) := by
  cases r with
  | ok u => exact .inl ⟨u, rfl, by simpa [State.finish] using h.symm⟩
  | error code => exact .inr ⟨code, rfl, by simpa [State.finish] using h.symm⟩

theorem finish_ok (s u : State) : s.finish (.ok u) = .next (u.complete .ok) := rfl

theorem finish_error (s : State) (code : ErrCode) : s.finish (.error code) = .next (s.complete code) := rfl

/-- Each command up to its completion. -/
def commandOf (i : Instr) (s : State) : Except ErrCode State :=
  match i with
  | .nop => .ok s
  | .fftFwd => fftFwdCommand s
  | .synth b => synthCommand b s
  | .indexF => .ok (s.setIndex (interpIndex s.freq))
  | .indexX => .ok (s.setIndex (exactIndex s.freq))
  | .rangeI => .ok (s.setRange s.clampedIndex)
  | .rangeF => .ok (s.setRange (bandOfIndex (interpIndex s.freq)))
  | .cutoff b => cutoffCommand b s
  | .padRow b => padRowCommand b s
  | .padAll => padAllCommand s
  | .build => buildCommand s
  | .buildAudio => buildAudioCommand s

/-- The engine performs a command by finishing it (R73). -/
theorem exec_eq_finish (i : Instr) (s : State) : exec i s = s.finish (commandOf i s) := by
  cases i <;> rfl

/-! ## Host reads -/

/-- A location is unspecified to a host only when the command in flight writes it (R71): a register. -/
theorem regInFlight_eq_false (s : State) (r : Reg)
    (h : s.isBusy = false ∨ ∀ i, decode s.cmd = .ok i → writesReg i r = false) : s.regInFlight r = false := by
  unfold State.regInFlight State.inFlight
  cases he : s.engine with
  | idle => rfl
  | busy n =>
    cases hd : decode s.cmd with
    | error code => rfl
    | ok i =>
      rcases h with h | h
      · simp [State.isBusy, he] at h
      · exact h i hd

/-- And a RAM word. -/
theorem ramInFlight_eq_false (s : State) (a : Nat)
    (h : s.isBusy = false ∨ ∀ i, decode s.cmd = .ok i → ∀ r ∈ writeRanges s i, a < r.1 ∨ r.1 + 4 * r.2 ≤ a) :
    s.ramInFlight a = false := by
  unfold State.ramInFlight State.inFlight
  cases he : s.engine with
  | idle => rfl
  | busy n =>
    cases hd : decode s.cmd with
    | error code => rfl
    | ok i =>
      rcases h with h | h
      · simp [State.isBusy, he] at h
      · simp only [Except.toOption, List.any_eq_false, decide_eq_true_eq]
        intro r hr
        have := h i hd r hr
        omega

theorem hostReadReg_current (s : State) (r : Reg)
    (h : s.isBusy = false ∨ ∀ i, decode s.cmd = .ok i → writesReg i r = false) : s.hostReadReg r = s.readReg r := by
  simp only [State.hostReadReg, regInFlight_eq_false s r h, Bool.false_eq_true, if_false]

theorem hostReadRam_current (s : State) (a : Nat)
    (h : s.isBusy = false ∨ ∀ i, decode s.cmd = .ok i → ∀ r ∈ writeRanges s i, a < r.1 ∨ r.1 + 4 * r.2 ≤ a) :
    s.hostReadRam a = s.word a := by
  simp only [State.hostReadRam, ramInFlight_eq_false s a h, Bool.false_eq_true, if_false]

/-! ## The operand checks -/

theorem checkBand_ok (band : BitVec 5) (m : Nat) (h : checkBand band = .ok m) :
    m = band.toNat ∧ band.toNat < numBands := by
  unfold checkBand at h
  split at h
  · cases h
  · cases h
    exact ⟨rfl, by omega⟩

theorem checkBand_error (band : BitVec 5) (c : ErrCode) (h : checkBand band = .error c) :
    c = .badBand ∧ numBands ≤ band.toNat := by
  unfold checkBand at h
  split at h
  · cases h
    exact ⟨rfl, by omega⟩
  · cases h

theorem checkLength_ok (len max n : Nat) (h : checkLength len max = .ok n) : n = len ∧ legalLength len max := by
  unfold checkLength at h
  split at h
  · cases h
  · split at h
    · cases h
    · cases h
      exact ⟨rfl, by omega, by omega, by omega⟩

theorem checkLength_legal (len max : Nat) (h : legalLength len max) : checkLength len max = .ok len := by
  obtain ⟨h1, h2, h3⟩ := h
  rw [checkLength, if_neg (by omega), if_neg (by omega)]

theorem checkLength_error (len max : Nat) (c : ErrCode) (h : checkLength len max = .error c) :
    (c = .badLength ∧ (len % 2 = 1 ∨ len < 4)) ∨ (c = .capacity ∧ len % 2 = 0 ∧ 4 ≤ len ∧ max < len) := by
  unfold checkLength at h
  split at h
  · cases h
    exact .inl ⟨rfl, ‹_›⟩
  · split at h
    · cases h
      exact .inr ⟨rfl, by omega, by omega, by omega⟩
    · cases h

theorem checkR_ok (s : State) (R : Word) (h : checkR s = .ok R) :
    R = s.refRate ∧ isFinite s.refRate = true ∧ 0 < scaled s.refRate := by
  unfold checkR at h
  split at h
  · cases h
    exact ⟨rfl, by tauto, by tauto⟩
  · cases h

theorem checkR_error (s : State) (c : ErrCode) (h : checkR s = .error c) : c = .badOperand := by
  unfold checkR at h
  split at h <;> cases h
  rfl

theorem checkA_ok (s : State) (A : Word) (h : checkA s = .ok A) : A = s.amplitude ∧ isFinite s.amplitude = true := by
  unfold checkA at h
  split at h
  · cases h
    exact ⟨rfl, ‹_›⟩
  · cases h

theorem checkA_error (s : State) (c : ErrCode) (h : checkA s = .error c) : c = .badOperand := by
  unfold checkA at h
  split at h <;> cases h
  rfl

theorem checkC_ok (s : State) (c : Word) (h : checkC s = .ok c) : c = s.cutoff ∧ isNaN s.cutoff = false := by
  unfold checkC at h
  split at h
  · cases h
  · cases h
    exact ⟨rfl, Bool.eq_false_iff.mpr ‹_›⟩

theorem checkC_error (s : State) (c : ErrCode) (h : checkC s = .error c) : c = .badOperand := by
  unfold checkC at h
  split at h <;> cases h
  rfl

theorem checkSamples_ok (s : State) (L : Nat) (xs : List Word) (h : checkSamples s L = .ok xs) :
    xs = s.words (sampleOffset 0) L ∧ ∀ x ∈ xs, isFinite x = true := by
  simp only [checkSamples] at h
  split at h
  · next hall =>
    cases h
    exact ⟨rfl, List.all_eq_true.mp hall⟩
  · cases h

theorem checkSamples_error (s : State) (L : Nat) (c : ErrCode) (h : checkSamples s L = .error c) : c = .badOperand := by
  simp only [checkSamples] at h
  split at h <;> cases h
  rfl

/-! ## Words and rows -/

@[simp] theorem words_length (s : State) (a n : Nat) : (s.words a n).length = n := by simp [State.words]

theorem words_getD (s : State) (a n j : Nat) (h : j < n) : (s.words a n).getD j 0#32 = s.word (a + 4 * j) := by
  simp [State.words, h]

@[simp] theorem irfft_length (cfg : Config) (Y : List (Word × Word)) (M : Nat) : (irfft cfg Y M).length = M := by
  simp [irfft]

@[simp] theorem forwardProfile_length (cfg : Config) (xs : List Word) :
    (forwardProfile cfg xs).length = xs.length / 2 + 1 := by
  simp [forwardProfile]

@[simp] theorem specWords_length (H : List (Word × Word)) : (specWords H).length = 2 * H.length := by
  induction H with
  | nil => rfl
  | cons e H ih =>
    simp only [specWords, List.flatMap_cons, List.length_append, List.length_cons, List.length_nil] at ih ⊢
    omega

theorem gateCount_le (c : Word) (M : Nat) : gateCount c M ≤ M / 2 := by
  unfold gateCount
  split
  · exact Nat.zero_le _
  · exact Nat.min_le_left _ _

/-- A row that is synthesised has M words, its gate count is that of the cutoff, and its bins were finite. -/
theorem synthRow_ok (cfg : Config) (harm : Nat → Word × Word) (A c : Word) (M : Nat) (row : List Word) (K : Nat)
    (h : synthRow cfg harm A c M = .ok (row, K)) :
    K = gateCount c M ∧ row = irfft cfg (allBins (includedBins harm A K) M) M ∧
      ∀ y ∈ includedBins harm A K, isFinite y.1 = true ∧ isFinite y.2 = true := by
  simp only [synthRow] at h
  split at h
  · next hall =>
    cases h
    exact ⟨rfl, rfl, by simpa using hall⟩
  · cases h

theorem synthRow_error (cfg : Config) (harm : Nat → Word × Word) (A c : Word) (M : Nat) (e : ErrCode)
    (h : synthRow cfg harm A c M = .error e) : e = .badOperand := by
  simp only [synthRow] at h
  split at h <;> cases h
  rfl

@[simp] theorem paddedRow_length (row : List Word) (h : extra ≤ row.length) :
    (paddedRow row).length = row.length + 2 * extra := by
  simp only [paddedRow, List.length_append, List.length_drop, List.length_take, extra_eq] at h ⊢
  omega

/-! ## BOUNDED outputs -/

/-- All a BOUNDED output can be: a word R153 allows, or the nearest word. -/
theorem bounded_cases (s : CosSum) (eps : Nat) (draw : Option { w : Word // s.Legal eps w }) :
    s.Legal eps (s.bounded eps draw) ∨ s.bounded eps draw = s.round := by
  cases draw with
  | none => exact .inr rfl
  | some w => exact .inl w.2

/-- Every word R153 allows is one a BOUNDED output can be. -/
theorem bounded_of_legal (s : CosSum) (eps : Nat) (w : Word) (h : s.Legal eps w) : s.bounded eps (some ⟨w, h⟩) = w := rfl

/-! ## Decoding -/

/-- What decoding an accepted word can answer, in the order of its checks (R94). -/
theorem decode_cases (c : Word) :
    (instrOf (opField c) (bandBits c) = none ∧ decode c = .error .illegalCmd) ∨
    ∃ i, instrOf (opField c) (bandBits c) = some i ∧
      ((rsvField c ≠ 0 ∧ decode c = .error .reservedBits) ∨
       (rsvField c = 0 ∧ opUsesBand (opField c) = false ∧ bandBits c ≠ 0 ∧ decode c = .error .reservedBits) ∨
       (rsvField c = 0 ∧ opUsesBand (opField c) = true ∧ numBands ≤ (bandBits c).toNat ∧ decode c = .error .badBand) ∨
       (rsvField c = 0 ∧ (opUsesBand (opField c) = false → bandBits c = 0) ∧
        (opUsesBand (opField c) = true → (bandBits c).toNat < numBands) ∧ decode c = .ok i)) := by
  unfold decode
  cases instrOf (opField c) (bandBits c) with
  | none => exact .inl ⟨rfl, rfl⟩
  | some i =>
    refine .inr ⟨i, rfl, ?_⟩
    dsimp only
    by_cases h1 : rsvField c = 0
    · rw [if_neg (not_not_intro h1)]
      by_cases h2 : opUsesBand (opField c) = false ∧ bandBits c ≠ 0
      · rw [if_pos h2]
        exact .inr (.inl ⟨h1, h2.1, h2.2, rfl⟩)
      · rw [if_neg h2]
        by_cases h3 : opUsesBand (opField c) = true ∧ numBands ≤ (bandBits c).toNat
        · rw [if_pos h3]
          exact .inr (.inr (.inl ⟨h1, h3.1, h3.2, rfl⟩))
        · rw [if_neg h3]
          exact .inr (.inr (.inr ⟨h1, by tauto, fun hb => by by_contra hc; exact h3 ⟨hb, by omega⟩, rfl⟩))
    · rw [if_pos h1]
      exact .inl ⟨h1, rfl⟩

/-- Decoding never answers an error of code 0x00. -/
theorem decode_error_ne_ok (c : Word) (e : ErrCode) (h : decode c = .error e) : e ≠ .ok := by
  rcases decode_cases c with ⟨_, h1⟩ | ⟨i, _, ⟨_, h1⟩ | ⟨_, _, _, h1⟩ | ⟨_, _, _, h1⟩ | ⟨_, _, _, h1⟩⟩ <;>
    rw [h1] at h <;> cases h <;> simp

/-! ## One step -/

/-- What a step can do: nothing, one event, or the engine's transition. -/
theorem step_cases (s : State) :
    (s.engine = .idle ∧ s.host = [] ∧ step s = .next s) ∨
    (∃ e es, s.engine = .idle ∧ s.host = e :: es ∧ step s = .next (State.hostEvent { s with host := es } e)) ∨
    (∃ n e es, s.engine = .busy (n + 1) ∧ s.host = e :: es ∧
      step s = .next (State.hostEvent { s with host := es, engine := .busy n } e)) ∨
    (∃ n, s.engine = .busy n ∧ (n = 0 ∨ s.host = []) ∧ step s = engineStep s) := by
  unfold step systemStep
  cases he : s.engine with
  | idle =>
    cases hh : s.host with
    | nil => exact .inl ⟨rfl, rfl, rfl⟩
    | cons e es => exact .inr (.inl ⟨e, es, rfl, rfl, rfl⟩)
  | busy n =>
    cases hh : s.host with
    | nil => exact .inr (.inr (.inr ⟨n, rfl, .inr rfl, rfl⟩))
    | cons e es =>
      cases n with
      | zero => exact .inr (.inr (.inr ⟨0, rfl, .inl rfl, rfl⟩))
      | succ n => exact .inr (.inr (.inl ⟨n, e, es, rfl, rfl, rfl⟩))

/-- What the engine's transition is: the decoded command, or the code decoding raised. -/
theorem engineStep_cases (s : State) :
    (∃ i, decode s.cmd = .ok i ∧ engineStep s = exec i s) ∨
    (∃ c, decode s.cmd = .error c ∧ engineStep s = .next (s.complete c)) := by
  unfold engineStep
  cases h : decode s.cmd with
  | ok i => exact .inl ⟨i, rfl, rfl⟩
  | error c => exact .inr ⟨c, rfl, rfl⟩

end Sys2Proof.Machine
end

