-- ==== Sys2Proof/Laws/PerInstr.lean ====
section
/-!
SUPPORT. Statements about every command as syntax, one lemma for each constructor of Instr.
-/

namespace Sys2Proof.Laws.EncodedFields

/-- The three fields of a command's word (R90, R93): its opcode, its band, and zeros above. -/
def Statement (i : Instr) : Prop :=
  opField (encode i) = i.opcode.toNat ∧ bandBits (encode i) = i.bandField ∧ rsvField (encode i) = 0

/-- The fields of three concatenated pieces are the pieces. -/
theorem of_pieces (r : BitVec 19) (b : BitVec 5) (o : BitVec 8) :
    (r ++ b ++ o).extractLsb' 0 8 = o ∧ (r ++ b ++ o).extractLsb' 8 5 = b ∧
      (r ++ b ++ o).extractLsb' 13 19 = r := by
  refine ⟨?_, ?_, ?_⟩ <;> apply BitVec.eq_of_getLsbD_eq <;> intro k hk
  · rw [BitVec.getLsbD_extractLsb', BitVec.getLsbD_append]
    simp [hk]
  · have h1 : ¬ 8 + k < 8 := by omega
    have h2 : 8 + k - 8 = k := by omega
    rw [BitVec.getLsbD_extractLsb', BitVec.getLsbD_append, if_neg h1, h2, BitVec.getLsbD_append]
    simp [hk]
  · have h1 : ¬ 13 + k < 8 := by omega
    have h2 : ¬ 13 + k - 8 < 5 := by omega
    have h3 : 13 + k - 8 - 5 = k := by omega
    rw [BitVec.getLsbD_extractLsb', BitVec.getLsbD_append, if_neg h1, BitVec.getLsbD_append, if_neg h2, h3]
    simp [hk]

theorem every (i : Instr) : Statement i := by
  obtain ⟨h1, h2, h3⟩ := of_pieces 0#19 i.bandField i.opcode
  exact ⟨congrArg BitVec.toNat h1, h2, h3⟩

theorem nop : Statement .nop := every _
theorem fftFwd : Statement .fftFwd := every _
theorem synth (band : BitVec 5) : Statement (.synth band) := every _
theorem indexF : Statement .indexF := every _
theorem indexX : Statement .indexX := every _
theorem rangeI : Statement .rangeI := every _
theorem rangeF : Statement .rangeF := every _
theorem cutoff (band : BitVec 5) : Statement (.cutoff band) := every _
theorem padRow (band : BitVec 5) : Statement (.padRow band) := every _
theorem padAll : Statement .padAll := every _
theorem build : Statement .build := every _
theorem buildAudio : Statement .buildAudio := every _

end Sys2Proof.Laws.EncodedFields
end

