-- ==== Sys2Proof/Tests/Slice0.lean ====
section
/-!
SUPPORT. Tests whose expected values come from the spec (sections of 95_test_vectors.md, or the rule itself), and for each
statement with hypotheses a theorem that concrete states and operands meet them. A test is a check of the model, never a
statement for the provers.
-/

-- One theorem at a time: each kernel evaluation has the memory to itself.
set_option Elab.async false

namespace Sys2Proof.Tests

open Sys2Proof Sys2Proof.Machine

/-! ## Small states -/

/-- The state after the engine's one transition for the command word `c`. -/
def after (c : Word) (s : State) : State :=
  match step (s.placeCommand c) with
  | .next t => t
  | .fault _ => s
  | .refused _ => s

/-- The state after one host write. -/
def written (a : BitVec 21) (v : Word) (s : State) : State := s.hostEvent (.write a false 0xF#4 v)

/-- SRC_LEN = 4 with the samples given, TABLE_SIZE = 4, CUTOFF = 0.5. -/
def sampled (x0 x1 x2 x3 : Word) : State :=
  { State.reset.writeRam (sampleOffset 0) [x0, x1, x2, x3] with
    srcLen := 4#32, tableSize := 4#32, cutoff := 0x3F000000#32 }

/-- The sine [0, 1, 0, -1] of section 4.1. -/
def sine : State := sampled 0x00000000#32 0x3F800000#32 0x00000000#32 0xBF800000#32

/-- The spectrum of that sine (section 4.1), written by hand, at TABLE_SIZE = 4 and CUTOFF = 0.5. -/
def spectral : State :=
  { State.reset.writeRam (specOffset 0)
      [0x00000000#32, 0x80000000#32, 0xBF800000#32, 0x80000000#32, 0x00000000#32, 0x80000000#32] with
    specLen := 3#32, tableSize := 4#32, cutoff := 0x3F000000#32 }

/-- TABLE_SIZE = 6 with the words 1 to 6 in ROW(1, 0 .. 5) (section 7). -/
def row6 : State :=
  { State.reset.writeRam (rowOffset 6 1 4) [1#32, 2#32, 3#32, 4#32, 5#32, 6#32] with tableSize := 6#32 }

/-- Reset with another table size, frequency, band index or cutoff. -/
def withTable (M : Word) : State := { State.reset with tableSize := M }
def withFreq (f : Word) : State := { State.reset with freq := f }
def withIndex (n : Word) : State := { State.reset with index := n }

/-- The state with a command in flight that leaves `n` more host accesses before its transition. -/
def inFlight (c : Word) (n : Nat) (s : State) : State := { s.placeCommand c with engine := .busy n }

/-- The engine answers a next state for any command: it finishes it one way or the other. -/
theorem exec_answers (i : Instr) (s : State) : ∃ t, exec i s = .next t := by
  rw [exec_eq_finish]
  cases commandOf i s with
  | ok u => exact ⟨_, finish_ok s u⟩
  | error code => exact ⟨_, finish_error s code⟩

/-! ## Well-formedness: R94 refuses bands 24 to 31 -/

theorem test_wf_refuses_synth_24 : ¬ (Instr.synth 24#5).wf := by decide
theorem test_wf_refuses_cutoff_31 : ¬ (Instr.cutoff 31#5).wf := by decide
theorem test_wf_refuses_padRow_24 : ¬ (Instr.padRow 24#5).wf := by decide
theorem test_wf_accepts_synth_23 : (Instr.synth 23#5).wf := by decide

/-! ## Decoding: words written out from R90 and R93 -/

theorem test_decode_nop : decode 0b0000000000000000000_00000_00000000#32 = .ok .nop := by rfl
theorem test_decode_fftFwd : decode 0b0000000000000000000_00000_00000001#32 = .ok .fftFwd := by rfl
theorem test_decode_synth : decode 0b0000000000000000000_10111_00000010#32 = .ok (.synth 23#5) := by rfl
theorem test_decode_indexF : decode 0b0000000000000000000_00000_00000011#32 = .ok .indexF := by rfl
theorem test_decode_indexX : decode 0b0000000000000000000_00000_00000100#32 = .ok .indexX := by rfl
theorem test_decode_rangeI : decode 0b0000000000000000000_00000_00000101#32 = .ok .rangeI := by rfl
theorem test_decode_rangeF : decode 0b0000000000000000000_00000_00000110#32 = .ok .rangeF := by rfl
theorem test_decode_cutoff : decode 0b0000000000000000000_00001_00000111#32 = .ok (.cutoff 1#5) := by rfl
theorem test_decode_padRow : decode 0b0000000000000000000_10000_00001000#32 = .ok (.padRow 16#5) := by rfl
theorem test_decode_padAll : decode 0b0000000000000000000_00000_00001001#32 = .ok .padAll := by rfl
theorem test_decode_build : decode 0b0000000000000000000_00000_00001010#32 = .ok .build := by rfl
theorem test_decode_buildAudio : decode 0b0000000000000000000_00000_00001011#32 = .ok .buildAudio := by rfl

/-- Section 3: the order of the checks. -/
theorem test_decode_errors :
    decode 0x0000200C#32 = .error .illegalCmd ∧ decode 0x80000001#32 = .error .reservedBits ∧
    decode 0x00001F09#32 = .error .reservedBits ∧ decode 0x00003807#32 = .error .reservedBits ∧
    decode 0x00001F08#32 = .error .badBand := ⟨rfl, rfl, rfl, rfl, rfl⟩

theorem test_encode_padRow : encode (.padRow 5#5) = 0x00000508#32 := by decide

/-! ## One step of each command -/

/-- Section 3. -/
theorem test_nop_status : (after 0x00000000#32 State.reset).statusWord = 0x00000002#32 := by decide +kernel

/-- Section 4.1. -/
theorem test_fftFwd_sine : (after 0x00000001#32 sine).words (specOffset 0) 6 =
    [0x00000000#32, 0x80000000#32, 0xBF800000#32, 0x80000000#32, 0x00000000#32, 0x80000000#32] := by decide +kernel

/-- Section 4.3. -/
theorem test_fftFwd_nan : (after 0x00000001#32 (sampled 0#32 0x7FC00000#32 0#32 0#32)).statusWord = 0x00000606#32 := by
  decide +kernel

/-- Section 5.2, amplitude -1.0. -/
theorem test_synth_sine : (after 0x00000502#32 { spectral with amplitude := 0xBF800000#32 }).words (rowOffset 4 5 4) 4 =
    [0x00000000#32, 0xBF800000#32, 0x00000000#32, 0x3F800000#32] := by decide +kernel

/-- Section 5.3, the Nyquist bin of M = 4 at half weight. -/
theorem test_synth_nyquist :
    (after 0x00000002#32 (spectral.writeRam (specOffset 1) [0#32, 0#32, 0#32, 0xBF800000#32])).words (rowOffset 4 0 4) 4 =
      [0x3F000000#32, 0xBF000000#32, 0x3F000000#32, 0xBF000000#32] := by decide +kernel

/-- Section 2.3. -/
theorem test_indexF_440 : (after 0x00000003#32 (withFreq 0x43DC0000#32)).result0 = 0x4131D15D#32 := by decide +kernel
theorem test_indexF_below_FN : (after 0x00000003#32 (withFreq 0x463B7FFE#32)).resultIndex = 23#32 := by decide +kernel
theorem test_indexX_440 : (after 0x00000004#32 (withFreq 0x43DC0000#32)).result0 = 0x4131D1FC#32 := by decide +kernel
theorem test_indexX_26_5 : (after 0x00000004#32 (withFreq 0x41D40000#32)).resultIndex = 1#32 := by decide +kernel

/-- Program P6, R136. -/
theorem test_rangeI_negative : (after 0x00000005#32 (withIndex 0xFFFFFFFF#32)).result1 = 0x41D34E01#32 := by decide +kernel
theorem test_rangeI_last : (after 0x00000005#32 (withIndex 0x7FFFFFFF#32)).result1 = 0x46AC4400#32 := by decide +kernel

/-- Section 2.4. -/
theorem test_rangeF_misses : (after 0x00000006#32 (withFreq 0x41D88802#32)).resultIndex = 0#32 := by decide +kernel
theorem test_rangeF_hits : (after 0x00000006#32 (withFreq 0x41D88803#32)).resultIndex = 1#32 := by decide +kernel

/-- Sections 6.1 and 6.3. -/
theorem test_cutoff_band0 : (after 0x00000007#32 State.reset).result0 = 0x3ED0B40F#32 := by decide +kernel
theorem test_cutoff_subnormal : (after 0x00000007#32 { State.reset with refRate := 0x00800000#32 }).result0 = 0x0000004E#32 := by
  decide +kernel

/-- Section 7. -/
theorem test_padRow_six : (after 0x00000108#32 row6).words (rowOffset 6 1 0) 14 =
    [3#32, 4#32, 5#32, 6#32, 1#32, 2#32, 3#32, 4#32, 5#32, 6#32, 1#32, 2#32, 3#32, 4#32] := by decide +kernel

theorem test_padAll_six : (after 0x00000009#32 { row6 with tablesValid := true }).words (rowOffset 6 1 10) 4 =
    [1#32, 2#32, 3#32, 4#32] := by decide +kernel
theorem test_padAll_clears_valid : (after 0x00000009#32 { row6 with tablesValid := true }).statusWord = 0x00000002#32 := by
  decide +kernel

/-- Section 8.1: in the last row of the sine build, the last guard word before it and the first two playable words. -/
theorem test_build_sine : (after 0x0000000A#32 spectral).words (rowOffset 4 23 3) 3 =
    [0xBF800000#32, 0x00000000#32, 0x3F800000#32] := by decide +kernel
theorem test_build_status : (after 0x0000000A#32 spectral).statusWord = 0x00000022#32 := by decide +kernel

/-- Section 8.2. -/
theorem test_buildAudio_sine : (after 0x0000000B#32 sine).words (rowOffset 4 0 0) 5 =
    [0x00000000#32, 0x3F800000#32, 0x00000000#32, 0xBF800000#32, 0x00000000#32] := by decide +kernel
theorem test_buildAudio_length_of_L_first :
    (after 0x0000000B#32 { withTable 2#32 with srcLen := 0x00002002#32 }).statusWord = 0x00000506#32 := by decide +kernel

/-! ## The bus (section 10) -/

theorem test_specLen_is_clamped : (written 0x40#21 0xFFFFFFFF#32 State.reset).specLen = 0x00001001#32 := by decide +kernel
theorem test_status_w1c :
    (written 0x1C#21 0xFFFFFFFF#32 { State.reset with
      done := true, err := true, errCode := .badOperand, cmdOverrun := true, busyWrite := true,
      tablesValid := true }).statusWord = 0x00000020#32 := by decide +kernel
theorem test_cmd_while_busy : (written 0x20#21 0x00000007#32 (inFlight 0x00000003#32 9 State.reset)).statusWord = 0x00000009#32 := by
  decide +kernel
theorem test_read_past_specLenCap :
    (State.reset.hostEvent (.read 0x28008#21 false)).response = some (.errorRead 0#32) := by decide +kernel
theorem test_read_f2i_2 : (State.reset.hostEvent (.read 0x1008#21 false)).response = some (.okayRead 0x403262BF#32) := by
  decide +kernel
theorem test_read_busy_sample :
    ((inFlight 0x00000001#32 9 sine).hostEvent (.read 0x10004#21 false)).response = some (.okayRead 0x3F800000#32) := by
  decide +kernel
/-- R71: NOP writes no result register, so a read of RESULT0 meanwhile answers its current value. -/
theorem test_read_result_while_nop :
    ((inFlight 0x00000000#32 9 { State.reset with result0 := 0x3F800000#32 }).hostEvent (.read 0x44#21 false)).response =
      some (.okayRead 0x3F800000#32) := by decide +kernel
/-- R285, section 10.3: BUSY reads as 1 while PAD_ALL, which writes TABLES_VALID, is in flight. -/
theorem test_status_poll_while_padAll :
    writesReg .padAll .status = true ∧ (inFlight 0x00000009#32 9 State.reset).statusWord = 0x00000001#32 := by decide +kernel
theorem test_soft_reset_aborts : (written 0x14#21 1#32 (inFlight 0x00000003#32 9 State.reset)).statusWord = 0#32 := by
  decide +kernel

/-! ## Witnesses: concrete states and operands that meet the hypotheses of each statement, clause by clause -/

theorem witness_DecodeOfEncode : Instr.nop.wf ∧ (Instr.synth 23#5).wf := by decide

theorem witness_EncodeOfDecode : decode 0x00001708#32 = .ok (.padRow 23#5) := by rfl

/-- An opcode just above the last, the lowest reserved bit, the lowest unused band bit, the first bad band, the last good one; and
a state whose next step is a decode failure. -/
theorem witness_DecodeFollowsItsChecks :
    0x0B < (0x0000000C#32).toNat % 2 ^ 8 ∧ (0x0000200B#32).toNat / 2 ^ 13 ≠ 0 ∧ (0x00000100#32).toNat / 2 ^ 8 % 2 ^ 5 ≠ 0 ∧
    24 ≤ (0x00001802#32).toNat / 2 ^ 8 % 2 ^ 5 ∧ (0x00001702#32).toNat / 2 ^ 8 % 2 ^ 5 < 24 ∧
    (inFlight 0x0000000C#32 0 State.reset).cmd = 0x0000000C#32 ∧ decode 0x0000000C#32 = .error .illegalCmd :=
  ⟨by decide, by decide, by decide, by decide, by decide, rfl, rfl⟩

/-- No host access left, some left with none to come, some left with one to come; idle with and without one to come. -/
theorem witness_StepRunsDecodedCommand :
    (inFlight 0x00000502#32 1 { State.reset with host := [.hardReset] }).engine = .busy (0 + 1) ∧
    (inFlight 0x00000502#32 1 { State.reset with host := [.hardReset] }).host = .hardReset :: [] ∧
    State.reset.engine = .idle ∧ State.reset.host = [] ∧ ({ State.reset with host := [.hardReset] }).engine = .idle ∧
    (inFlight 0x00000502#32 0 State.reset).engine = .busy 0 ∧ (inFlight 0x00000502#32 7 State.reset).engine = .busy 7 ∧
    (inFlight 0x00000502#32 7 State.reset).host = [] ∧ decode (inFlight 0x00000502#32 7 State.reset).cmd = .ok (.synth 5#5) ∧
    decode (inFlight 0x00001802#32 0 State.reset).cmd = .error .badBand :=
  ⟨rfl, rfl, rfl, rfl, rfl, rfl, rfl, rfl, rfl, rfl⟩

theorem witness_EveryCommandCompletes : State.reset.err = false ∧ State.reset.errCode = .ok := by decide

theorem witness_ErrorsArePrecise :
    ∃ t, (inFlight 0x00000001#32 0 State.reset).errCode = .ok ∧
      engineStep (inFlight 0x00000001#32 0 State.reset) = .next t ∧ t.errCode ≠ .ok :=
  ⟨(inFlight 0x00000001#32 0 State.reset).completedWith .badLength, rfl, rfl, by decide⟩

/-- The bytes on either side of the row, and a register outside its write set. -/
theorem witness_CommandsWriteOnlyTheirWriteSet :
    (∃ t, exec (.synth 5#5) spectral = .next t) ∧
    (∀ a ∈ [rowOffset 4 5 4 - 1, rowOffset 4 5 8], ∀ r ∈ writeRanges spectral (.synth 5#5), a < r.1 ∨ r.1 + 4 * r.2 ≤ a) ∧
    writesReg (.synth 5#5) .specLen = false ∧ writesReg .fftFwd .status = false :=
  ⟨exec_answers _ _, by decide +kernel, rfl, rfl⟩

/-- What a build of silence leaves at TABLE_SIZE = 4 (section 8.1: every word of the rows is +0), and a host that stores to SAMPLE
next. -/
def builtState : State :=
  { State.reset.writeRam (tabOffset 0) (List.replicate 288 0x00000000#32) with
    tableSize := 4#32, tablesValid := true, done := true, host := [.write 0x10000#21 false 0xF#4 0x3F800000#32] }

theorem builtState_rowWord (m q : Nat) (hm : m < 24) (hq : q < 12) : builtState.rowWord 4 m q = 0x00000000#32 := by
  have h := State.word_writeRam_inside State.reset (tabOffset 0) (List.replicate 288 0x00000000#32) (m * 12 + q)
    (by rw [List.length_replicate]; omega)
  rw [List.getD_replicate (h := by omega)] at h
  have e : rowOffset 4 m q = tabOffset 0 + 4 * (m * 12 + q) := by
    simp only [rowOffset, tabOffset, rowBase, extra_eq]
  rw [State.rowWord, e]
  exact h

theorem builtState_padded (m : Nat) (hm : m < numBands) : builtState.rowPadded 4 m := by
  intro k hk
  simp only [numBands_eq, extra_eq] at hm hk ⊢
  rw [builtState_rowWord m _ hm (by omega), builtState_rowWord m _ hm (by omega), builtState_rowWord m _ hm (by omega),
    builtState_rowWord m _ hm (by omega)]
  exact ⟨rfl, rfl⟩

theorem builtState_inv : builtState.Inv where
  config := by decide +kernel
  memory := Memory.wf_writeWords ⟨[]⟩ _ _ (by decide)
  listed := by
    intro c hc
    have h := Memory.mem_writeWords ⟨[]⟩ (tabOffset 0) (List.replicate 288 0x00000000#32) c.1 (List.mem_map_of_mem hc)
    have e : builtState.cfg = Config.reference := rfl
    rw [List.length_replicate] at h
    rw [e, ramOffset, show tabOffset Config.reference.tabWords = 0x160300 from by decide +kernel]
    simp only [List.map_nil, List.not_mem_nil, false_or, show tabOffset 0 = 0x100000 from rfl] at h
    omega
  error := by decide +kernel
  specLen := by decide +kernel
  inFlight := by decide +kernel
  small := by decide +kernel
  tables := fun _ => ⟨by decide +kernel, builtState_padded⟩

/-- An idle block performs the next event of the host. -/
theorem step_idle (s : State) (e : HostEvent) (es : List HostEvent) (h1 : s.engine = .idle) (h2 : s.host = e :: es) :
    step s = .next (State.hostEvent { s with host := es } e) := by
  simp [step, systemStep, h1, h2]

theorem witness_StepKeepsInvariant : builtState.Inv ∧ builtState.tablesValid = true ∧ ∃ t, step builtState = .next t :=
  ⟨builtState_inv, rfl, ⟨_, step_idle builtState _ _ rfl rfl⟩⟩

/-- Success and failure of each class of command; and each class of write. -/
theorem witness_TablesValidSetAndCleared :
    State.reset.errCode = .ok ∧
    (after 0x0000000A#32 spectral).errCode = .ok ∧ (after 0x0000000B#32 sine).errCode = .ok ∧
    (after 0x00000502#32 spectral).errCode = .ok ∧ (after 0x00000108#32 row6).errCode = .ok ∧
    (after 0x00000009#32 row6).errCode = .ok ∧ (after 0x00000000#32 State.reset).errCode = .ok ∧
    (after 0x00000001#32 State.reset).errCode ≠ .ok ∧
    (match decode 0x0000000C#32 with | .error code => code | .ok _ => .ok) = .illegalCmd ∧
    writeRefused Config.reference 0x14 false 0xF#4 = false ∧ writeRefused Config.reference 0x28 false 0xF#4 = false ∧
    writeRefused Config.reference 0x1602FC false 0xF#4 = false ∧ writeRefused Config.reference 0x160300 false 0xF#4 = true ∧
    locate Config.reference 0x100000 = .tab ∧ locate Config.reference 0x1602FC = .tab ∧ State.reset.isBusy = false := by
  decide +kernel

theorem witness_RationalsRoundToNearestEven : 0 < 3 ∧ rn32 (-(2 ^ 149)) 3 = 0xBEAAAAAB#32 := by decide +kernel

/-- The smallest and the largest magnitudes, zeros, infinities of both signs and a NaN. -/
theorem witness_OperationsRoundOnce :
    isFinite 0x00000001#32 = true ∧ isFinite 0xFF7FFFFF#32 = true ∧
    scaled 0x00000001#32 + scaled 0xFF7FFFFF#32 ≠ 0 ∧ scaled 0x00000001#32 - scaled 0xFF7FFFFF#32 ≠ 0 ∧
    scaled 0x00000001#32 * scaled 0xFF7FFFFF#32 ≠ 0 ∧ scaled 0x00000001#32 ≠ 0 ∧ scaled 0xFF7FFFFF#32 ≠ 0 ∧
    scaled 0x80000000#32 = 0 ∧ isFinite 0x80000000#32 = true ∧ isNaN 0x7F800001#32 = true ∧ isInf 0x7F800000#32 = true ∧
    isInf 0xFF800000#32 = true ∧ signBit 0x7F800000#32 ≠ signBit 0xFF800000#32 := by
  decide +kernel

/-- A zero of either sign first or second, an infinite divisor, the smallest subnormal and its negative, two zeros. -/
theorem witness_ZeroResultsHaveIeeeSigns :
    isFinite 0x80000000#32 = true ∧ scaled 0x80000000#32 = 0 ∧ isFinite 0x00000000#32 = true ∧ scaled 0x00000000#32 = 0 ∧
    isFinite 0x80000001#32 = true ∧ scaled 0x80000001#32 ≠ 0 ∧ isInf 0xFF800000#32 = true ∧
    scaled 0x80000001#32 + scaled 0x00000001#32 = 0 := by decide +kernel

/-- INDEX at -1, 0, 1, 22, 23 and 24. -/
theorem witness_RangeIResult :
    (withIndex 0xFFFFFFFF#32).index.toInt ≤ 0 ∧ (withIndex 0#32).index.toInt ≤ 0 ∧
    0 < (withIndex 1#32).index.toInt ∧ (withIndex 1#32).index.toInt = 1 ∧
    (withIndex 22#32).index.toInt < 23 ∧ (withIndex 22#32).index.toInt = 22 ∧
    23 ≤ (withIndex 23#32).index.toInt ∧ 23 ≤ (withIndex 24#32).index.toInt := by decide +kernel

theorem witness_RangesAreContiguous :
    (withIndex 0#32).index = BitVec.ofNat 32 0 ∧ (withIndex 1#32).index = BitVec.ofNat 32 (0 + 1) ∧
    (withIndex 22#32).index = BitVec.ofNat 32 22 ∧ (withIndex 23#32).index = BitVec.ofNat 32 (22 + 1) := by decide +kernel

/-- A NaN, F1, the words next to F1 and FN inside, FN; with the interpolation's j at both ends of its range. -/
theorem witness_IndexFResult :
    isNaN (withFreq 0x7FC00000#32).freq = true ∧ scaled (withFreq 0x41A00000#32).freq ≤ scaled 0x41A00000#32 ∧
    isNaN (withFreq 0x463B8000#32).freq = false ∧ scaled 0x463B8000#32 ≤ scaled (withFreq 0x463B8000#32).freq ∧
    ∀ x ∈ ([(0x41A00001#32, 0), (0x463B7FFF#32, 1022)] : List (Word × Nat)),
      isNaN (withFreq x.1).freq = false ∧ scaled 0x41A00000#32 < scaled (withFreq x.1).freq ∧
        scaled (withFreq x.1).freq < scaled 0x463B8000#32 ∧
        (x.2 : Int) = max 0 (min (scaled (mul32 (sub32 x.1 0x41A00000#32) 0x3DAEE22B#32) / 2 ^ 149) 1022) := by
  decide +kernel

/-- The same ends; between them the search answers (section 2.3). -/
theorem witness_IndexXResult :
    isNaN 0x41A00001#32 = false ∧ isNaN 0x463B7FFF#32 = false ∧
    indexSearch 6 64 (scaled 0x41A00001#32).toNat (20 * 2 ^ 149) = some 0x34B8169B#32 ∧
    indexSearch 6 64 (scaled 0x463B7FFF#32).toNat (20 * 2 ^ 149) = some 0x41B80000#32 := by
  decide +kernel

theorem witness_IndexEndsAreExact :
    (withFreq 0x41A00000#32).freq = 0x41A00000#32 ∧ (withFreq 0x463B8000#32).freq = 0x463B8000#32 := by decide

/-- Equal arguments, and 600. -/
theorem witness_LogarithmIsEnclosed : 0 < 1 ∧ 1 ≤ 1 ∧ 1 ≤ 600 := by decide

theorem witness_IndexXIsTheRoundedLaw :
    ∃ T : ℝ, isNaN (withFreq 0x43DC0000#32).freq = false ∧ scaled 0x41A00000#32 < scaled (withFreq 0x43DC0000#32).freq ∧
      scaled (withFreq 0x43DC0000#32).freq < scaled 0x463B8000#32 ∧ IsBandIndex (withFreq 0x43DC0000#32).freq T ∧
      indexSearch 6 64 (scaled (withFreq 0x43DC0000#32).freq).toNat (20 * 2 ^ 149) = some 0x4131D1FC#32 :=
  ⟨_, by decide +kernel, by decide +kernel, by decide +kernel, rfl, by decide +kernel⟩

theorem witness_BandStartsAreRounded : 0 < 24 ∧ 23 < 24 ∧ sf 23 = 0x463B8000#32 := by decide

/-- An angle of 0 and one of π. -/
theorem witness_CosineIsEnclosed : 0 < 2 ∧ 2 % 2 = 0 ∧ (cosEncl 64 0 2).lo ≤ 2 ^ 64 ∧ (cosEncl 64 1 2).hi < 0 := by
  decide +kernel

/-- cos 0 + cos π. -/
theorem witness_ZeroTestIsSound : 0 < (⟨4, [(1, 0), (1, 2)]⟩ : CosSum).den ∧ (⟨4, [(1, 0), (1, 2)]⟩ : CosSum).isZero = true := by
  decide +kernel

/-- 2^149·cos 0, which is 1.0, and its negative. -/
theorem witness_SumsAreCorrectlyRounded :
    CosSum.HasValue ⟨4, [(2 ^ 149, 0)]⟩ (2 ^ 149) ∧ CosSum.search 18 64 ⟨4, [(2 ^ 149, 0)]⟩ = some 0x3F800000#32 ∧
    CosSum.HasValue ⟨4, [(-(2 ^ 149), 0)]⟩ (-(2 ^ 149)) ∧ CosSum.search 18 64 ⟨4, [(-(2 ^ 149), 0)]⟩ = some 0xBF800000#32 :=
  ⟨by norm_num [CosSum.HasValue], by decide +kernel, by norm_num [CosSum.HasValue], by decide +kernel⟩

/-- The samples of the sine. -/
def sineSamples : List Word := [0x00000000#32, 0x3F800000#32, 0x00000000#32, 0xBF800000#32]

/-- Both parts of bin 1 of the sine settle, one of them an exact zero; and both numerics modes. -/
theorem witness_ForwardSumsAreTheTransform :
    0 < sineSamples.length ∧ sineSamples.length % 2 = 0 ∧
    (forwardSum sineSamples false 1).settled ∧ (forwardSum sineSamples true 1).settled ∧
    Config.reference.xform = .correctlyRounded ∧
    ({ Config.reference with xform := .bounded 0 }).xform = .bounded 0 :=
  ⟨by decide, by decide, .inr (by decide +kernel), .inr (by decide +kernel), rfl, rfl⟩

/-- R153(b) by hand: X_1 of 0, 1, 0, 1 is 0 and the norm is 2, so at XFORM_EPS = 2^-24 the word of 2^-23 is just allowed. -/
theorem test_legal_on_the_bound (eps : Nat) (h : (Config.xformEps eps).val = 1 / 2 ^ 24) :
    (forwardSum [0#32, 0x3F800000#32, 0#32, 0x3F800000#32] false 1).Legal eps 0x34000000#32 := by
  have hs : forwardSum [0#32, 0x3F800000#32, 0#32, 0x3F800000#32] false 1 = ⟨8, [(0, 0), (2 ^ 149, 2), (0, 4), (2 ^ 149, 6)]⟩ := by
    decide +kernel
  have h3 : Real.cos (2 * Real.pi * 6 / 8) = 0 := by
    rw [show 2 * Real.pi * 6 / 8 = Real.pi / 2 + Real.pi by ring, Real.cos_add_pi, Real.cos_pi_div_two, neg_zero]
  have h1 : Real.cos (2 * Real.pi * 2 / 8) = 0 := by
    rw [show 2 * Real.pi * 2 / 8 = Real.pi / 2 by ring, Real.cos_pi_div_two]
  rw [hs]
  refine ⟨0, ?_, .inr ⟨by decide +kernel, ?_⟩⟩
  · simp [CosSum.HasValue, h1, h3]
  · rw [h, show scaled 0x34000000#32 = 2 ^ 126 by decide +kernel]
    norm_num [CosSum.norm]
/-- The premises inside `IsWithin`: a value of magnitude 1.0 and a binary32 value within a bound of it. -/
theorem witness_IsWithin :
    |(2 ^ 149 : ℝ)| < 2 ^ 276 ∧ ∃ v : Word, isFinite v = true ∧ |(scaled v : ℝ) - 2 ^ 149| ≤ 1 :=
  ⟨by rw [abs_of_nonneg (by positivity)]; exact pow_lt_pow_right₀ (by norm_num) (by norm_num), 0x3F800000#32, by decide +kernel, by
    rw [show scaled 0x3F800000#32 = 2 ^ 149 from by decide +kernel]
    norm_num⟩

/-- The bins of the sine at M = 4. -/
def sineBins : List (Word × Word) := [(posZero, posZero), (0x00000000#32, 0xBF000000#32), (0x00000000#32, 0x00000000#32)]

/-- The first and the last output of the row of the sine settle. -/
theorem witness_InverseSumIsTheTransform :
    4 % 2 = 0 ∧ 4 ≤ 4 ∧ sineBins.length = 4 / 2 + 1 ∧
    (inverseSum (nonzeroBins sineBins) 4 0).settled ∧ (inverseSum (nonzeroBins sineBins) 4 3).settled ∧
    Config.reference.xform = .correctlyRounded ∧
    ({ Config.reference with xform := .bounded 0 }).xform = .bounded 0 :=
  ⟨by decide, by decide, by decide, .inr (by decide +kernel), .inr (by decide +kernel), rfl, rfl⟩

theorem witness_FftFwdResult : sine.srcLen.toNat = 4 ∧ legalLength 4 sine.cfg.srcLenMax ∧
    ∀ n < 4, isFinite (sine.word (sampleOffset n)) = true := by decide +kernel

/-- L = 3, 2, 8194 and 4 with a NaN. -/
theorem witness_FftFwdErrors :
    (3#32).toNat % 2 = 1 ∧ (2#32).toNat < 4 ∧ State.reset.cfg.srcLenMax < (8194#32).toNat ∧ (8194#32).toNat % 2 = 0 ∧
    legalLength (sampled 0#32 0#32 0#32 0x7FC00000#32).srcLen.toNat State.reset.cfg.srcLenMax ∧
    isFinite ((sampled 0#32 0#32 0#32 0x7FC00000#32).word (sampleOffset 3)) = false := by decide +kernel

/-- k at 1 and at M/2, on both sides of the gate. -/
theorem witness_GateIsExact :
    isNaN 0x3E800000#32 = false ∧ isFinite 0x3E800000#32 = true ∧ isInf 0xFF800000#32 = true ∧ isNaN 0xFF800000#32 = false ∧
    1 ≤ 8 / 2 ∧ ((1 : Nat) : Int) * 2 ^ 149 ≤ scaled 0x3E800000#32 * 8 ∧
    ¬ ((8 / 2 : Nat) : Int) * 2 ^ 149 ≤ scaled 0x3E800000#32 * 8 := by decide +kernel

theorem sineBins_finite : sineBins.all (fun y => isFinite y.1 && isFinite y.2) = true := by decide +kernel

theorem witness_SynthResult :
    (23#5).toNat < 24 ∧ spectral.tableSize.toNat = 4 ∧ legalLength 4 spectral.cfg.tableSizeMax ∧
    isFinite spectral.amplitude = true ∧ isNaN spectral.cutoff = false ∧ 2 = gateCount spectral.cutoff 4 ∧
    sineBins.length = 4 / 2 + 1 ∧
    (∀ k ≤ 4 / 2,
      let h := if k < spectral.specLen.toNat then (spectral.word (specOffset k), spectral.word (specOffset k + 4))
        else (posZero, posZero)
      let a := mul32 spectral.amplitude 0x3F000000#32
      sineBins.getD k (posZero, posZero) =
        (if 1 ≤ k ∧ k ≤ 2 then (mul32 a (neg32 h.2), mul32 a h.1) else (posZero, posZero))) ∧
    (∀ y ∈ sineBins, isFinite y.1 = true ∧ isFinite y.2 = true) :=
  ⟨by decide, by decide +kernel, by decide +kernel, by decide +kernel, by decide +kernel, by decide +kernel, by decide,
    by decide +kernel, fun y hy => by simpa using List.all_eq_true.mp sineBins_finite y hy⟩

/-- Bands 23 and 24, M = 2, 3, 4098 and 4; an infinite amplitude, a NaN cutoff. -/
theorem witness_SynthErrors :
    24 ≤ (24#5).toNat ∧ (23#5).toNat < 24 ∧ (withTable 3#32).tableSize.toNat % 2 = 1 ∧ (withTable 2#32).tableSize.toNat < 4 ∧
    (withTable 4098#32).tableSize.toNat % 2 = 0 ∧ (withTable 4098#32).cfg.tableSizeMax < (withTable 4098#32).tableSize.toNat ∧
    legalLength (withTable 4#32).tableSize.toNat (withTable 4#32).cfg.tableSizeMax ∧
    isFinite 0x7F800000#32 = false ∧ isNaN 0x7FC00000#32 = true := by decide +kernel

/-- No harmonic admitted by the gate; and SPEC_LEN = 0 or 1 with an open gate. -/
theorem witness_SilentSynthRowIsZero :
    (withTable 4#32).tableSize.toNat = 4 ∧ legalLength 4 (withTable 4#32).cfg.tableSizeMax ∧
    isFinite (withTable 4#32).amplitude = true ∧ isNaN (withTable 4#32).cutoff = false ∧
    (withTable 4#32).cfg.xform = .correctlyRounded ∧ gateCount (withTable 4#32).cutoff 4 = 0 ∧
    (0#32).toNat ≤ 1 ∧ ({ spectral with specLen := 1#32 }).specLen.toNat ≤ 1 ∧ gateCount spectral.cutoff 4 = 2 := by
  decide +kernel

theorem witness_CutoffResult :
    (23#5).toNat < 24 ∧ (withTable 4#32).tableSize.toNat = 4 ∧ legalLength 4 (withTable 4#32).cfg.tableSizeMax ∧
    isFinite (withTable 4#32).refRate = true ∧ 0 < scaled (withTable 4#32).refRate ∧
    0x3E800000#32 = div32 (div32 (mul32 0x3F000000#32 (withTable 4#32).refRate) (float32 (4 : Nat))) (sf ((23#5).toNat + 1)) := by
  decide +kernel

/-- Rates that are not finite, zero and negative; the lengths and bands are those of `witness_SynthErrors`. -/
theorem witness_CutoffErrors :
    isFinite 0x7FC00000#32 = false ∧ isFinite 0x7F800000#32 = false ∧ scaled 0x80000000#32 ≤ 0 ∧ scaled 0x00000000#32 ≤ 0 ∧
    scaled 0xBF800000#32 ≤ 0 := by decide +kernel

theorem witness_CutoffsAreMonotone :
    (0#5).toNat ≤ (23#5).toNat ∧ (23#5).toNat < 24 ∧
    legalLength State.reset.tableSize.toNat State.reset.cfg.tableSizeMax ∧
    isFinite State.reset.refRate = true ∧ 0 < scaled State.reset.refRate := by decide +kernel

/-- The bytes next to the two groups of guard words. -/
theorem witness_PadRowResult :
    (1#5).toNat < 24 ∧ row6.tableSize.toNat = 6 ∧ legalLength 6 row6.cfg.tableSizeMax ∧
    ∀ a ∈ [rowOffset 6 1 0 - 1, rowOffset 6 1 4, rowOffset 6 1 10 - 1, rowOffset 6 1 14],
      (a < rowOffset 6 1 0 ∨ rowOffset 6 1 4 ≤ a) ∧ (a < rowOffset 6 1 (4 + 6) ∨ rowOffset 6 1 (8 + 6) ≤ a) := by
  decide +kernel

/-- The same bands and lengths as `witness_SynthErrors`. -/
theorem witness_PadErrors :
    24 ≤ (24#5).toNat ∧ (23#5).toNat < 24 ∧ (withTable 3#32).tableSize.toNat % 2 = 1 ∧ (withTable 2#32).tableSize.toNat < 4 ∧
    (withTable 4098#32).tableSize.toNat % 2 = 0 ∧ 4 ≤ (withTable 4098#32).tableSize.toNat ∧
    (withTable 4098#32).cfg.tableSizeMax < (withTable 4098#32).tableSize.toNat := by decide +kernel

theorem witness_PadRowTwiceIsOnce : ∃ t, exec (.padRow 1#5) row6 = .next t := exec_answers _ _

/-- A byte below every row, one of a playable word, and one above every row. -/
theorem witness_PadAllResult :
    row6.tableSize.toNat = 6 ∧ legalLength 6 row6.cfg.tableSizeMax ∧
    ∀ a ∈ [rowOffset 6 0 0 - 1, rowOffset 6 5 4, rowOffset 6 23 14], ∀ m < 24,
      (a < rowOffset 6 m 0 ∨ rowOffset 6 m 4 ≤ a) ∧ (a < rowOffset 6 m (4 + 6) ∨ rowOffset 6 m (8 + 6) ≤ a) := by
  decide +kernel

theorem spectral_gate : ∀ m < 24, gateCount (cut m 4 spectral.refRate).1 4 ≤ 2 := by decide +kernel

theorem spectral_bins : ∀ k < 3,
    isFinite (synthBin (mul32 spectral.amplitude 0x3F000000#32) (spectral.harm k)).1 = true ∧
    isFinite (synthBin (mul32 spectral.amplitude 0x3F000000#32) (spectral.harm k)).2 = true := by decide +kernel

theorem witness_BuildResult :
    spectral.tableSize.toNat = 4 ∧ legalLength 4 spectral.cfg.tableSizeMax ∧ isFinite spectral.refRate = true ∧
    0 < scaled spectral.refRate ∧ isFinite spectral.amplitude = true ∧
    (∀ m < 24, ∀ k, 1 ≤ k → k ≤ gateCount (cut m 4 spectral.refRate).1 4 →
      isFinite (synthBin (mul32 spectral.amplitude 0x3F000000#32) (spectral.harm k)).1 = true ∧
      isFinite (synthBin (mul32 spectral.amplitude 0x3F000000#32) (spectral.harm k)).2 = true) :=
  ⟨by decide +kernel, by decide +kernel, by decide +kernel, by decide +kernel, by decide +kernel,
    fun m hm k _ hk => spectral_bins k (by have := spectral_gate m hm; omega)⟩

/-- L and M at each of their bounds; the operands of `witness_CutoffErrors` and `witness_FftFwdErrors` at legal lengths. -/
theorem witness_BuildErrors :
    (withTable 3#32).tableSize.toNat % 2 = 1 ∧ (withTable 2#32).tableSize.toNat < 4 ∧
    (withTable 4098#32).cfg.tableSizeMax < (withTable 4098#32).tableSize.toNat ∧ State.reset.srcLen.toNat < 4 ∧
    legalLength sine.srcLen.toNat sine.cfg.srcLenMax ∧ legalLength sine.tableSize.toNat sine.cfg.tableSizeMax ∧
    legalLength ({ sine with tableSize := 3#32 }).srcLen.toNat sine.cfg.srcLenMax ∧
    isFinite ({ sine with refRate := 0x7FC00000#32 }).refRate = false ∧
    scaled ({ sine with refRate := 0x80000000#32 }).refRate ≤ 0 ∧
    isFinite ({ sine with amplitude := 0xFF800000#32 }).amplitude = false ∧
    isFinite ((sampled 0#32 0#32 0#32 0x7FC00000#32).word (sampleOffset 3)) = false := by decide +kernel

/-- H_1 at SPEC_LEN = 3 whose bin has a non-finite real part, and one whose bin has a non-finite imaginary part. -/
def infiniteRe : State := spectral.writeRam (specOffset 1) [0x00000000#32, 0x7F800000#32]
def infiniteIm : State := spectral.writeRam (specOffset 1) [0x7F800000#32, 0x00000000#32]

/-- A sine of the largest finite amplitude, whose fundamental overflows in the forward transform. -/
def loudSine : State := sampled 0x00000000#32 0x7F7FFFFF#32 0x00000000#32 0xFF7FFFFF#32

/-- The first harmonic, which band 23 admits as well. -/
theorem witness_BuildFailsAsAWhole :
    infiniteRe.tableSize.toNat = 4 ∧ legalLength 4 infiniteRe.cfg.tableSizeMax ∧ isFinite infiniteRe.amplitude = true ∧
    isFinite infiniteRe.refRate = true ∧ 0 < scaled infiniteRe.refRate ∧ isNaN infiniteRe.cutoff = false ∧
    1 ≤ gateCount infiniteRe.cutoff 4 ∧ 1 ≤ gateCount (cut 23 4 infiniteRe.refRate).1 4 ∧
    isFinite (mul32 (mul32 infiniteRe.amplitude 0x3F000000#32) (neg32 (infiniteRe.harm 1).2)) = false ∧
    isFinite (mul32 (mul32 infiniteIm.amplitude 0x3F000000#32) (neg32 (infiniteIm.harm 1).2)) = true ∧
    isFinite (mul32 (mul32 infiniteIm.amplitude 0x3F000000#32) (infiniteIm.harm 1).1) = false ∧
    loudSine.srcLen.toNat = 4 ∧ legalLength loudSine.srcLen.toNat loudSine.cfg.srcLenMax ∧
    (∀ n < loudSine.srcLen.toNat, isFinite (loudSine.word (sampleOffset n)) = true) ∧
    isFinite (mul32 (mul32 loudSine.amplitude 0x3F000000#32)
      ((forwardProfile loudSine.cfg (loudSine.words (sampleOffset 0) loudSine.srcLen.toNat)).getD 1 (posZero, posZero)).1) =
      false := by decide +kernel

theorem witness_SilentBuildIsZero :
    (0#32).toNat ≤ 1 ∧ ({ spectral with specLen := 1#32 }).specLen.toNat ≤ 1 ∧
    spectral.tableSize.toNat = 4 ∧ legalLength 4 spectral.cfg.tableSizeMax ∧ isFinite spectral.refRate = true ∧
    0 < scaled spectral.refRate ∧ isFinite spectral.amplitude = true ∧ spectral.cfg.xform = .correctlyRounded := by
  decide +kernel

/-- The same operands in two states that differ elsewhere. -/
theorem witness_BuildsAreIdempotent :
    let s := sine
    let s' := { sine with freq := 0x43DC0000#32, done := true }
    s ≠ s' ∧ s.cfg = s'.cfg ∧ s.tableSize = s'.tableSize ∧ s.refRate = s'.refRate ∧ s.amplitude = s'.amplitude ∧
    s.errCode = .ok ∧ s'.errCode = .ok ∧ s.specLen = s'.specLen ∧ s.srcLen = s'.srcLen ∧
    (∀ k, 1 ≤ k → k < s.specLen.toNat → s.specEntry k = s'.specEntry k) ∧
    (∀ n < s.srcLen.toNat, s.word (sampleOffset n) = s'.word (sampleOffset n)) ∧
    (∃ t, exec .build s = .next t) ∧ (∃ t, exec .build s' = .next t) ∧
    (∃ t, exec .buildAudio s = .next t) ∧ (∃ t, exec .buildAudio s' = .next t) :=
  ⟨by decide +kernel, rfl, rfl, rfl, rfl, rfl, rfl, rfl, rfl, fun _ _ _ => rfl, fun _ _ => rfl, exec_answers _ _,
    exec_answers _ _, exec_answers _ _, exec_answers _ _⟩

/-- The profile of the sine (section 4.1). -/
def sineProfile : List (Word × Word) :=
  [(0x00000000#32, 0x80000000#32), (0xBF800000#32, 0x80000000#32), (0x00000000#32, 0x80000000#32)]

theorem sine_profile : sineProfile = forwardProfile sine.cfg (sine.words (sampleOffset 0) 4) := by decide +kernel

theorem sine_gate : ∀ m < 24, gateCount (cut m 4 sine.refRate).1 4 ≤ 2 := by decide +kernel

theorem sine_bins : ∀ k < 3,
    isFinite (synthBin (mul32 sine.amplitude 0x3F000000#32) (sineProfile.getD k (posZero, posZero))).1 = true ∧
    isFinite (synthBin (mul32 sine.amplitude 0x3F000000#32) (sineProfile.getD k (posZero, posZero))).2 = true := by
  decide +kernel

theorem witness_BuildAudioIsForwardThenBuild :
    sine.srcLen.toNat = 4 ∧ sine.tableSize.toNat = 4 ∧ legalLength 4 sine.cfg.srcLenMax ∧ legalLength 4 sine.cfg.tableSizeMax ∧
    isFinite sine.refRate = true ∧ 0 < scaled sine.refRate ∧ isFinite sine.amplitude = true ∧
    (∀ n < 4, isFinite (sine.word (sampleOffset n)) = true) ∧
    sineProfile = forwardProfile sine.cfg (sine.words (sampleOffset 0) 4) ∧
    (∀ m < 24, ∀ k, 1 ≤ k → k ≤ gateCount (cut m 4 sine.refRate).1 4 →
      isFinite (synthBin (mul32 sine.amplitude 0x3F000000#32) (sineProfile.getD k (posZero, posZero))).1 = true ∧
      isFinite (synthBin (mul32 sine.amplitude 0x3F000000#32) (sineProfile.getD k (posZero, posZero))).2 = true) :=
  ⟨by decide +kernel, by decide +kernel, by decide +kernel, by decide +kernel, by decide +kernel, by decide +kernel,
    by decide +kernel, by decide +kernel, sine_profile, fun m hm k _ hk => sine_bins k (by have := sine_gate m hm; omega)⟩

/-- The offsets on both sides of each hole of the map, in the reference configuration (section 10.2). -/
theorem witness_BadAccessesGetErrorOnly :
    State.reset.cfg.wf ∧ State.reset.cfg = Config.reference ∧
    (∀ a ∈ [0x2064, 0xFFFC, 0x18000, 0x1FFFC, 0x28008, 0x2FFFC, 0x30000, 0xFFFFC, 0x160300, 0x1FFFFC],
      locate Config.reference a = .unmapped) ∧
    (∀ a ∈ [0x0FFC, 0x2060, 0x10000, 0x17FFC, 0x20000, 0x28004, 0x100000, 0x1602FC],
      locate Config.reference a ≠ .unmapped) := by decide +kernel

/-- Reads outside the write set while busy, of a register and of a RAM word; reads while idle; the ends of the reserved range. -/
theorem witness_ReadsChangeNothing :
    State.reset.isBusy = false ∧ decode (inFlight 0x00000000#32 9 sine).cmd = .ok .nop ∧ writesReg .nop .result0 = false ∧
    (0x54#21).toNat % 4 = 0 ∧ (0xFFC#21).toNat % 4 = 0 ∧ 0x54 ≤ (0x54#21).toNat ∧ (0xFFC#21).toNat < 0x1000 ∧
    locate State.reset.cfg 0x10000 = .sample ∧ locate State.reset.cfg 0x28004 = .spec ∧
    locate State.reset.cfg 0x1602FC = .tab ∧ decode (inFlight 0x00000001#32 9 sine).cmd = .ok .fftFwd ∧
    ∀ r ∈ writeRanges (inFlight 0x00000001#32 9 sine) .fftFwd, 0x10000 < r.1 ∨ r.1 + 4 * r.2 ≤ 0x10000 :=
  ⟨by decide +kernel, rfl, rfl, by decide, by decide, by decide, by decide, by decide +kernel, by decide +kernel,
    by decide +kernel, rfl, by decide +kernel⟩

theorem witness_RamWritesAreReadBack :
    State.reset.isBusy = false ∧ locate State.reset.cfg 0x17FFC = .sample ∧ locate State.reset.cfg 0x20000 = .spec ∧
    locate State.reset.cfg 0x1602FC = .tab ∧ 0x17FFC % 4 = 0 ∧ 0x20000 % 4 = 0 ∧ 0x1602FC % 4 = 0 := by decide +kernel

theorem witness_BusyWritesAreDropped :
    (inFlight 0x00000003#32 9 State.reset).isBusy = true ∧ (0x24#21).toNat % 4 = 0 ∧ (0x40#21).toNat % 4 = 0 ∧
    locate State.reset.cfg 0x10000 = .sample ∧ locate State.reset.cfg 0x28004 = .spec ∧ locate State.reset.cfg 0x1602FC = .tab := by
  decide +kernel

/-- One access performed while the command stays in flight. -/
theorem witness_OperandsAreFrozenWhileBusy :
    let s := { inFlight 0x00000003#32 1 State.reset with host := [.write 0x28#21 false 0xF#4 8#32] }
    ∃ t, s.isBusy = true ∧ step s = .next t ∧ t.isBusy = true := ⟨_, rfl, rfl, rfl⟩

theorem witness_CmdWriteIsAcceptedOrDropped :
    State.reset.isBusy = false ∧ (inFlight 0x00000003#32 0 State.reset).isBusy = true := by decide +kernel

theorem witness_RegisterWritesTakeTheirValue : (0xFFFFFFFE#32).getLsbD 0 = false ∧ State.reset.isBusy = false ∧
    State.reset.cfg.wf ∧ State.reset.cfg.specCap = 4097 := by
  decide +kernel

/-- A soft reset of an idle block, and of one with FFT_FWD in flight; a byte outside its write set. -/
theorem witness_SoftResetResult :
    (1#32).getLsbD 0 = true ∧ State.reset.isBusy = false ∧ decode (inFlight 0x00000001#32 9 sine).cmd = .ok .fftFwd ∧
    ∀ r ∈ writeRanges (inFlight 0x00000001#32 9 sine) .fftFwd, 0x20018 < r.1 ∨ r.1 + 4 * r.2 ≤ 0x20018 :=
  ⟨by decide +kernel, by decide +kernel, rfl, by decide +kernel⟩

end Sys2Proof.Tests
end

/-! # Commands that succeed

What each command has checked and what it writes, when it raises no error (R13, R160 to R210). -/

namespace Sys2Proof.Machine

/-- A chain of checks succeeds when the first does and the rest does from its value. -/
theorem bind_eq_ok_iff {ε α β : Type} (x : Except ε α) (f : α → Except ε β) (b : β) :
    (x >>= f) = .ok b ↔ ∃ a, x = .ok a ∧ f a = .ok b := by
  cases x with
  | error e => exact ⟨nofun, nofun⟩
  | ok a => exact ⟨fun h => ⟨a, rfl, h⟩, fun ⟨_, rfl, hf⟩ => hf⟩

theorem fftFwdCommand_ok {s u : State} (h : fftFwdCommand s = .ok u) :
    legalLength s.srcLen.toNat s.cfg.srcLenMax ∧
      u = s.storeProfile (forwardProfile s.cfg (s.words (sampleOffset 0) s.srcLen.toNat)) := by
  simp only [fftFwdCommand, bind_eq_ok_iff] at h
  obtain ⟨L, hL, xs, hxs, hu⟩ := h
  obtain ⟨rfl, hlegal⟩ := checkLength_ok _ _ _ hL
  obtain ⟨rfl, -⟩ := checkSamples_ok _ _ _ hxs
  cases hu
  exact ⟨hlegal, rfl⟩

theorem synthCommand_ok {band : BitVec 5} {s u : State} (h : synthCommand band s = .ok u) :
    band.toNat < numBands ∧ legalLength s.tableSize.toNat s.cfg.tableSizeMax ∧
      ∃ row K, synthRow s.cfg s.harm s.amplitude s.cutoff s.tableSize.toNat = .ok (row, K) ∧
        u = s.storeRow s.tableSize.toNat band.toNat row K := by
  simp only [synthCommand, bind_eq_ok_iff] at h
  obtain ⟨m, hm, M, hM, A, hA, c, hc, ⟨row, K⟩, hrow, hu⟩ := h
  obtain ⟨rfl, hband⟩ := checkBand_ok _ _ hm
  obtain ⟨rfl, hlegal⟩ := checkLength_ok _ _ _ hM
  obtain ⟨rfl, -⟩ := checkA_ok _ _ hA
  obtain ⟨rfl, -⟩ := checkC_ok _ _ hc
  cases hu
  exact ⟨hband, hlegal, row, K, hrow, rfl⟩

theorem cutoffCommand_ok {band : BitVec 5} {s u : State} (h : cutoffCommand band s = .ok u) :
    band.toNat < numBands ∧ legalLength s.tableSize.toNat s.cfg.tableSizeMax ∧
      u = { s with
        result0 := (cut band.toNat s.tableSize.toNat s.refRate).1
        result1 := (cut band.toNat s.tableSize.toNat s.refRate).2
        resultIndex := BitVec.ofNat 32
          (gateCount (cut band.toNat s.tableSize.toNat s.refRate).1 s.tableSize.toNat) } := by
  simp only [cutoffCommand, bind_eq_ok_iff] at h
  obtain ⟨m, hm, M, hM, R, hR, hu⟩ := h
  obtain ⟨rfl, hband⟩ := checkBand_ok _ _ hm
  obtain ⟨rfl, hlegal⟩ := checkLength_ok _ _ _ hM
  obtain ⟨rfl, -⟩ := checkR_ok _ _ hR
  cases hu
  exact ⟨hband, hlegal, rfl⟩

theorem padRowCommand_ok {band : BitVec 5} {s u : State} (h : padRowCommand band s = .ok u) :
    band.toNat < numBands ∧ legalLength s.tableSize.toNat s.cfg.tableSizeMax ∧
      u = { s.padRow s s.tableSize.toNat band.toNat with tablesValid := false } := by
  simp only [padRowCommand, bind_eq_ok_iff] at h
  obtain ⟨m, hm, M, hM, hu⟩ := h
  obtain ⟨rfl, hband⟩ := checkBand_ok _ _ hm
  obtain ⟨rfl, hlegal⟩ := checkLength_ok _ _ _ hM
  cases hu
  exact ⟨hband, hlegal, rfl⟩

theorem padAllCommand_ok {s u : State} (h : padAllCommand s = .ok u) :
    legalLength s.tableSize.toNat s.cfg.tableSizeMax ∧
      u = { (List.range numBands).foldl (fun (t : State) m => t.padRow s s.tableSize.toNat m) s with
        tablesValid := false } := by
  simp only [padAllCommand, bind_eq_ok_iff] at h
  obtain ⟨M, hM, hu⟩ := h
  obtain ⟨rfl, hlegal⟩ := checkLength_ok _ _ _ hM
  cases hu
  exact ⟨hlegal, rfl⟩

/-- A list of results that all succeed has one value for each element. -/
theorem mapM_ok_iff {ε α β : Type} (f : α → Except ε β) (l : List α) (ys : List β) :
    l.mapM f = .ok ys ↔ List.Forall₂ (fun x y => f x = .ok y) l ys := by
  induction l generalizing ys with
  | nil => simp [List.forall₂_nil_left_iff, pure, Except.pure, eq_comm]
  | cons x l ih =>
    rw [List.mapM_cons, bind_eq_ok_iff, List.forall₂_cons_left_iff]
    simp only [bind_eq_ok_iff, ih, pure, Except.pure, Except.ok.injEq]
    exact ⟨fun ⟨y, hy, zs, hzs, h⟩ => ⟨y, zs, hy, hzs, h.symm⟩, fun ⟨y, zs, hy, hzs, h⟩ => ⟨y, hy, zs, hzs, h.symm⟩⟩

/-- A build that raises nothing has computed a row of M words for every band (R205). -/
theorem buildRows_ok {cfg : Config} {harm : Nat → Word × Word} {A R : Word} {M : Nat} {rows : List (List Word)}
    (h : buildRows cfg harm A R M = .ok rows) :
    rows.length = numBands ∧ ∀ row ∈ rows, row.length = M := by
  rw [buildRows, mapM_ok_iff] at h
  refine ⟨by simpa using h.length_eq.symm, fun row hrow => ?_⟩
  obtain ⟨i, hi, rfl⟩ := List.getElem_of_mem hrow
  have hi' : i < (List.range numBands).length := by rw [h.length_eq]; exact hi
  have hband := h.get hi' hi
  obtain ⟨⟨row', K⟩, hrow', hret⟩ := (bind_eq_ok_iff _ _ _).mp hband
  obtain ⟨-, hrow', -⟩ := synthRow_ok _ _ _ _ _ _ _ hrow'
  cases hret
  exact (congrArg List.length hrow').trans (irfft_length _ _ _)

theorem buildCommand_ok {s u : State} (h : buildCommand s = .ok u) :
    legalLength s.tableSize.toNat s.cfg.tableSizeMax ∧
      ∃ rows, buildRows s.cfg s.harm s.amplitude s.refRate s.tableSize.toNat = .ok rows ∧
        u = s.storeTables s.tableSize.toNat s.refRate rows := by
  simp only [buildCommand, bind_eq_ok_iff] at h
  obtain ⟨M, hM, R, hR, A, hA, rows, hrows, hu⟩ := h
  obtain ⟨rfl, hlegal⟩ := checkLength_ok _ _ _ hM
  obtain ⟨rfl, -⟩ := checkR_ok _ _ hR
  obtain ⟨rfl, -⟩ := checkA_ok _ _ hA
  cases hu
  exact ⟨hlegal, rows, hrows, rfl⟩

theorem buildAudioCommand_ok {s u : State} (h : buildAudioCommand s = .ok u) :
    legalLength s.srcLen.toNat s.cfg.srcLenMax ∧ legalLength s.tableSize.toNat s.cfg.tableSizeMax ∧
      ∃ H rows, H = forwardProfile s.cfg (s.words (sampleOffset 0) s.srcLen.toNat) ∧
        buildRows s.cfg (harmOf H) s.amplitude s.refRate s.tableSize.toNat = .ok rows ∧
        u = (s.storeProfile H).storeTables s.tableSize.toNat s.refRate rows := by
  simp only [buildAudioCommand, bind_eq_ok_iff] at h
  obtain ⟨L, hL, M, hM, R, hR, A, hA, xs, hxs, rows, hrows, hu⟩ := h
  obtain ⟨rfl, hlegalL⟩ := checkLength_ok _ _ _ hL
  obtain ⟨rfl, hlegalM⟩ := checkLength_ok _ _ _ hM
  obtain ⟨rfl, -⟩ := checkR_ok _ _ hR
  obtain ⟨rfl, -⟩ := checkA_ok _ _ hA
  obtain ⟨rfl, -⟩ := checkSamples_ok _ _ _ hxs
  cases hu
  exact ⟨hlegalL, hlegalM, _, rows, rfl, hrows, rfl⟩

/-! ## Blocks of RAM words -/

/-- The `n` words from offset `a` up are words of the RAMs (R60). -/
def ramBlock (c : Config) (a n : Nat) : Prop := ∀ x, a ≤ x → x < a + 4 * n → ramOffset c x

theorem locate_eq_sample {c : Config} {a : Nat} (h : locate c a = .sample) :
    0x10000 ≤ a ∧ a < sampleOffset c.srcLenMax := by
  unfold locate at h
  split_ifs at h
  case pos => split at h <;> cases h
  exact ⟨by omega, ‹_›⟩

theorem locate_eq_spec {c : Config} {a : Nat} (h : locate c a = .spec) :
    0x20000 ≤ a ∧ a < specOffset c.specCap := by
  unfold locate at h
  split_ifs at h
  case pos => split at h <;> cases h
  exact ⟨by omega, ‹_›⟩

theorem locate_eq_tab {c : Config} {a : Nat} (h : locate c a = .tab) :
    0x100000 ≤ a ∧ a < tabOffset c.tabWords := by
  unfold locate at h
  split_ifs at h
  case pos => split at h <;> cases h
  exact ⟨by omega, ‹_›⟩

/-- An aligned offset in one of the RAMs is that of a whole word of it (R60, R62(c)). -/
theorem ramBlock_one {c : Config} {a : Nat} (ha : a % 4 = 0) (h : ramOffset c a) : ramBlock c a 1 := by
  intro x hx hlt
  simp only [ramOffset, sampleOffset, specOffset, tabOffset] at h ⊢
  omega

/-- The row `m` with its guard words lies in TAB (R14, R60). -/
theorem rowBase_add_le (c : Config) (M m : Nat) (hm : m < numBands) (hM : M ≤ c.tableSizeMax) :
    rowBase M m + (M + 2 * extra) ≤ c.tabWords := by
  calc rowBase M m + (M + 2 * extra) = (m + 1) * (M + 2 * extra) := by rw [rowBase]; ring
    _ ≤ numBands * (c.tableSizeMax + 2 * extra) := Nat.mul_le_mul (by omega) (by omega)

/-- Words `w` to `w + n` of TAB, as many as TAB holds (R60). -/
theorem ramBlock_tab (c : Config) (w n : Nat) (h : n = 0 ∨ w + n ≤ c.tabWords) : ramBlock c (tabOffset w) n := by
  intro x hx hlt
  simp only [ramOffset, tabOffset] at hx hlt ⊢
  exact .inr (.inr (by omega))

theorem ramBlock_spec (c : Config) (n : Nat) (h : n ≤ 2 * c.specCap) : ramBlock c (specOffset 0) n := by
  intro x hx hlt
  simp only [ramOffset, specOffset] at hx hlt ⊢
  exact .inr (.inl (by omega))

/-- The write set of every command is made of RAM words (R68). -/
theorem writeRanges_ramBlock (s : State) (i : Instr) (r : Nat × Nat) (hr : r ∈ writeRanges s i) :
    ramBlock s.cfg r.1 r.2 := by
  have tab (w n : Nat) : ramBlock s.cfg (tabOffset w) (min n (s.cfg.tabWords - w)) := ramBlock_tab _ _ _ (by omega)
  have spec := ramBlock_spec s.cfg (min (2 * (s.srcLen.toNat / 2 + 1)) (2 * s.cfg.specCap)) (by omega)
  cases i <;> simp only [writeRanges, List.mem_cons, List.not_mem_nil, or_false, List.mem_flatMap] at hr
  case fftFwd => exact hr ▸ spec
  case synth => exact hr ▸ tab _ _
  case padRow => rcases hr with rfl | rfl <;> exact tab _ _
  case padAll => obtain ⟨m, -, rfl | rfl⟩ := hr <;> exact tab _ _
  case build => exact hr ▸ tab _ _
  case buildAudio => rcases hr with rfl | rfl; exacts [spec, tab _ _]

/-! ## Memory of RAM words -/

/-- The memory part of the invariant: canonical, and only RAM words listed (R60). -/
def Memory.inRam (c : Config) (m : Memory) : Prop := m.wf ∧ ∀ x ∈ m.cells, ramOffset c x.1

theorem Memory.inRam_writeWords {c : Config} {m : Memory} {a : Nat} {ws : List Word} (h : m.inRam c)
    (hb : ramBlock c a ws.length) : (m.writeWords a ws).inRam c := by
  obtain ⟨hwf, hlisted⟩ := h
  refine ⟨m.wf_writeWords a ws hwf, fun x hx => ?_⟩
  rcases m.mem_writeWords a ws x.1 (List.mem_map_of_mem hx) with hold | ⟨hlo, hhi⟩
  · obtain ⟨y, hy, hyx⟩ := List.mem_map.mp hold
    exact hyx ▸ hlisted y hy
  · exact hb x.1 hlo hhi

theorem State.Inv.inRam {s : State} (h : s.Inv) : s.mem.inRam s.cfg := ⟨h.memory, h.listed⟩

/-- What a soft reset leaves of an aborted command's memory is made of RAM words (R272(a)). -/
theorem abort_inRam (s : State) (h : s.mem.inRam s.cfg) : s.abort.cfg = s.cfg ∧ s.abort.mem.inRam s.cfg := by
  unfold State.abort
  cases s.inFlight with
  | none => exact ⟨rfl, h⟩
  | some i =>
    refine List.foldlRecOn (motive := fun t : State => t.cfg = s.cfg ∧ t.mem.inRam s.cfg) _ _ ⟨rfl, h⟩ ?_
    intro t ⟨hcfg, hmem⟩ r hr
    refine ⟨hcfg, Memory.inRam_writeWords hmem ?_⟩
    simpa using writeRanges_ramBlock s i r hr

/-! ## The invariant under the updates of the state -/

/-- Padding rests on the words of TAB alone. -/
theorem rowPadded_congr {s t : State} {M m : Nat} (h : ∀ x, 0x100000 ≤ x → t.word x = s.word x)
    (hp : s.rowPadded M m) : t.rowPadded M m := by
  have hrow (q : Nat) : t.rowWord M m q = s.rowWord M m q := h _ (by simp [rowOffset, tabOffset])
  intro k hk
  simpa only [hrow] using hp k hk

/-- A block written below TAB keeps the invariant (R46, R47). -/
theorem State.Inv.writeRam_below_tab {s : State} {a : Nat} {ws : List Word} (h : s.Inv)
    (hb : ramBlock s.cfg a ws.length) (hlow : a + 4 * ws.length ≤ 0x100000) : (s.writeRam a ws).Inv := by
  obtain ⟨hwf, hlisted⟩ := Memory.inRam_writeWords h.inRam hb
  refine { h with memory := hwf, listed := hlisted, tables := fun hv => ?_ }
  obtain ⟨hlegal, hpadded⟩ := h.tables hv
  exact ⟨hlegal, fun m hm => rowPadded_congr
    (fun x hx => State.word_writeRam_outside s a ws x (.inr (by omega))) (hpadded m hm)⟩

/-- A block of RAM words written with TABLES_VALID cleared keeps the invariant (R53). -/
theorem State.Inv.writeRam_invalid {s : State} {a : Nat} {ws : List Word} (h : s.Inv)
    (hb : ramBlock s.cfg a ws.length) : ({ s.writeRam a ws with tablesValid := false }).Inv := by
  obtain ⟨hwf, hlisted⟩ := Memory.inRam_writeWords h.inRam hb
  exact { h with memory := hwf, listed := hlisted, tables := nofun }

/-- Completion, with success or an error, keeps the invariant (R243). -/
theorem State.Inv.complete {s : State} (h : s.Inv) (code : ErrCode) : (s.complete code).Inv := by
  refine { h with error := ?_, inFlight := nofun }
  by_cases hc : code = .ok
  · simpa [hc] using h.error
  · simp [hc]

/-- A number below 2^14 is stored as it is (R15). -/
theorem toNat_ofNat_of_small {n : Nat} (h : n < 2 ^ 14) : (BitVec.ofNat 32 n).toNat < 2 ^ 14 := by
  rw [BitVec.toNat_ofNat]
  omega

theorem bandOfIndex_le (r : Word) : bandOfIndex r ≤ 23 := by
  unfold bandOfIndex clampI
  split_ifs <;> omega

theorem clampedIndex_le (s : State) : s.clampedIndex ≤ 23 := by
  unfold State.clampedIndex clampI
  split_ifs <;> omega

theorem State.Inv.setIndex {s : State} (h : s.Inv) (r : Word) : (s.setIndex r).Inv :=
  { h with small := ⟨toNat_ofNat_of_small (by have := bandOfIndex_le r; omega), h.small.2⟩ }

theorem State.Inv.setRange {s : State} (h : s.Inv) {o : Nat} (ho : o ≤ 23) : (s.setRange o).Inv :=
  { h with small := ⟨toNat_ofNat_of_small (by omega), h.small.2⟩ }

/-- A gate count of a legal table size is a small integer (R15, R159). -/
theorem State.Inv.gateCount_small {s : State} (h : s.Inv) (c : Word)
    (hM : legalLength s.tableSize.toNat s.cfg.tableSizeMax) : gateCount c s.tableSize.toNat < 2 ^ 14 := by
  obtain ⟨-, -, -, -, -, hmax⟩ := h.config
  obtain ⟨-, -, hM⟩ := hM
  have := gateCount_le c s.tableSize.toNat
  omega

/-- A profile of a legal source length keeps the invariant (R40, R160). -/
theorem State.Inv.storeProfile {s : State} (h : s.Inv) {H : List (Word × Word)} (hH : H.length ≤ s.cfg.specCap) :
    (s.storeProfile H).Inv := by
  have hlen : (specWords H).length ≤ 2 * s.cfg.specCap := by rw [specWords_length]; omega
  obtain ⟨-, -, hmax, -⟩ := h.config
  have hcap : s.cfg.specCap ≤ 8192 := by rw [Config.specCap]; omega
  have hw := h.writeRam_below_tab (ramBlock_spec s.cfg _ hlen) (by rw [specOffset]; omega)
  refine { hw with specLen := ?_ }
  change (BitVec.ofNat 32 H.length).toNat ≤ _
  rw [BitVec.toNat_ofNat]
  exact (Nat.mod_le _ _).trans hH

theorem forwardProfile_length_le {c : Config} {L : Nat} (xs : List Word) (hL : xs.length = L)
    (h : legalLength L c.srcLenMax) : (forwardProfile c xs).length ≤ c.specCap := by
  obtain ⟨-, -, h⟩ := h
  rw [forwardProfile_length, Config.specCap, hL]
  omega

/-- One row's padding stores RAM words (R200). -/
theorem padRow_inRam {s t : State} {M m : Nat} (hm : m < numBands) (hM : M ≤ s.cfg.tableSizeMax)
    (ht : t.mem.inRam s.cfg) : (t.padRow s M m).mem.inRam s.cfg := by
  have hrow := rowBase_add_le s.cfg M m hm hM
  refine Memory.inRam_writeWords (Memory.inRam_writeWords ht ?_) ?_ <;> rw [words_length]
  · exact ramBlock_tab _ _ _ (.inr (by simp only [extra_eq] at *; omega))
  · exact ramBlock_tab _ _ _ (.inr (by simp only [extra_eq] at *; omega))

/-- Padding a row, with TABLES_VALID cleared, keeps the invariant (R53, R200). -/
theorem State.Inv.padRow_invalid {s : State} (h : s.Inv) {m : Nat} (hm : m < numBands)
    (hM : legalLength s.tableSize.toNat s.cfg.tableSizeMax) :
    ({ s.padRow s s.tableSize.toNat m with tablesValid := false }).Inv := by
  obtain ⟨-, -, hmax⟩ := hM
  obtain ⟨hwf, hlisted⟩ := padRow_inRam hm hmax h.inRam
  exact { h with memory := hwf, listed := hlisted, tables := nofun }

/-- Padding rows writes memory only. -/
theorem foldl_padRow_eq (s t : State) (M : Nat) (ms : List Nat) :
    ms.foldl (fun (t : State) m => t.padRow s M m) t =
      { t with mem := (ms.foldl (fun (t : State) m => t.padRow s M m) t).mem } := by
  induction ms generalizing t with
  | nil => rfl
  | cons m ms ih => rw [List.foldl_cons, ih]; rfl

/-- Padding every row, with TABLES_VALID cleared, keeps the invariant (R53, R203). -/
theorem State.Inv.padAll_invalid {s : State} (h : s.Inv) (hM : legalLength s.tableSize.toNat s.cfg.tableSizeMax) :
    ({ (List.range numBands).foldl (fun (t : State) m => t.padRow s s.tableSize.toNat m) s with
      tablesValid := false }).Inv := by
  obtain ⟨-, -, hmax⟩ := hM
  have hmem : ((List.range numBands).foldl (fun (t : State) m => t.padRow s s.tableSize.toNat m) s).mem.inRam s.cfg :=
    List.foldlRecOn (motive := fun t : State => t.mem.inRam s.cfg) _ _ h.inRam
      fun t ht m hm => padRow_inRam (List.mem_range.mp hm) hmax ht
  rw [foldl_padRow_eq]
  obtain ⟨hwf, hlisted⟩ := hmem
  exact { h with memory := hwf, listed := hlisted, tables := nofun }

/-- Storing a synthesised row keeps the invariant (R170). -/
theorem State.Inv.storeRow {s : State} (h : s.Inv) {m K : Nat} {row : List Word} (hm : m < numBands)
    (hM : legalLength s.tableSize.toNat s.cfg.tableSizeMax) (hrow : row.length = s.tableSize.toNat)
    (hK : K < 2 ^ 14) : (s.storeRow s.tableSize.toNat m row K).Inv := by
  obtain ⟨-, -, hmax⟩ := hM
  have hbase := rowBase_add_le s.cfg _ m hm hmax
  have hb : ramBlock s.cfg (rowOffset s.tableSize.toNat m extra) row.length :=
    ramBlock_tab _ _ _ (.inr (by omega))
  exact { h.writeRam_invalid hb with small := ⟨h.small.1, toNat_ofNat_of_small hK⟩ }

/-! ## Built tables are padded (R201, R205) -/

/-- In a list of lists of one length `n`, the word `q` of list `m` is word `m·n + q` of them all. -/
theorem getD_flatMap_uniform {α β : Type} (f : α → List β) (n : Nat) (d : β) (l : List α) (hf : ∀ x ∈ l, (f x).length = n)
    (m q : Nat) (hm : m < l.length) (hq : q < n) : (l.flatMap f).getD (m * n + q) d = (f l[m]).getD q d := by
  induction l generalizing m with
  | nil => exact absurd hm (Nat.not_lt_zero m)
  | cons x l ih =>
    have hx : (f x).length = n := hf x (List.mem_cons_self ..)
    rw [List.flatMap_cons]
    cases m with
    | zero => rw [Nat.zero_mul, Nat.zero_add, List.getD_append _ _ _ _ (by omega)]; rfl
    | succ m =>
      rw [List.getD_append_right _ _ _ _ (by rw [hx]; nlinarith), hx,
        show (m + 1) * n + q - n = m * n + q by rw [Nat.succ_mul]; omega]
      exact ih (fun y hy => hf y (List.mem_cons_of_mem _ hy)) m (by simpa using hm)

/-- The words of a padded row: its guard words repeat the words at the other end (R201). -/
theorem paddedRow_wraps (row : List Word) (hM : extra ≤ row.length) (k : Nat) (hk : k < extra) :
    (paddedRow row).getD (extra + row.length + k) 0#32 = (paddedRow row).getD (extra + k) 0#32 ∧
      (paddedRow row).getD (extra - 1 - k) 0#32 = (paddedRow row).getD (extra + row.length - 1 - k) 0#32 := by
  have hdrop : (row.drop (row.length - extra)).length = extra := by rw [List.length_drop]; omega
  have front (q : Nat) (hq : q < extra) : (paddedRow row).getD q 0#32 = row.getD (row.length - extra + q) 0#32 := by
    rw [paddedRow, List.getD_append _ _ _ _ (by rw [List.length_append]; omega), List.getD_append _ _ _ _ (by omega)]
    simp [List.getD_eq_getElem?_getD]
  have play (p : Nat) (hp : p < row.length) : (paddedRow row).getD (extra + p) 0#32 = row.getD p 0#32 := by
    rw [paddedRow, List.getD_append _ _ _ _ (by rw [List.length_append]; omega),
      List.getD_append_right _ _ _ _ (by omega), hdrop, Nat.add_sub_cancel_left]
  have back (q : Nat) (hq : q < extra) : (paddedRow row).getD (extra + row.length + q) 0#32 = row.getD q 0#32 := by
    rw [paddedRow, List.getD_append_right _ _ _ _ (by rw [List.length_append]; omega), List.length_append, hdrop,
      Nat.add_sub_cancel_left]
    simp only [List.getD_eq_getElem?_getD, List.getElem?_take, hq, if_true]
  refine ⟨by rw [back k hk, play k (by omega)], ?_⟩
  rw [front _ (by omega), show extra + row.length - 1 - k = extra + (row.length - 1 - k) by omega, play _ (by omega)]
  congr 1
  omega

section
variable {s : State} {M : Nat} {R : Word} {rows : List (List Word)}

theorem length_flatMap_paddedRow (hM : extra ≤ M) (hrows : ∀ row ∈ rows, row.length = M) :
    (rows.flatMap paddedRow).length = rows.length * (M + 2 * extra) := by
  rw [List.length_flatMap, List.map_congr_left (g := fun _ => M + 2 * extra)
    fun row hrow => by rw [paddedRow_length row (by rw [hrows row hrow]; exact hM), hrows row hrow]]
  simp

/-- Each word of a built row is that of the padded row (R14, R205). -/
theorem rowWord_storeTables (hM : extra ≤ M) (hrows : ∀ row ∈ rows, row.length = M) (m q : Nat) (hm : m < rows.length)
    (hq : q < M + 2 * extra) : (s.storeTables M R rows).rowWord M m q = (paddedRow rows[m]).getD q 0#32 := by
  have hpad : ∀ row ∈ rows, (paddedRow row).length = M + 2 * extra := fun row hrow => by
    rw [paddedRow_length row (by rw [hrows row hrow]; exact hM), hrows row hrow]
  have hlt : rowBase M m + q < (rows.flatMap paddedRow).length := by
    rw [length_flatMap_paddedRow hM hrows, rowBase]
    calc m * (M + 2 * extra) + q < (m + 1) * (M + 2 * extra) := by rw [Nat.succ_mul m]; omega
      _ ≤ _ := Nat.mul_le_mul_right _ hm
  calc (s.storeTables M R rows).rowWord M m q
      = (s.writeRam (tabOffset 0) (rows.flatMap paddedRow)).word (tabOffset 0 + 4 * (rowBase M m + q)) := rfl
    _ = (rows.flatMap paddedRow).getD (rowBase M m + q) 0#32 := State.word_writeRam_inside _ _ _ _ hlt
    _ = (paddedRow rows[m]).getD q 0#32 := getD_flatMap_uniform _ _ _ _ hpad m q hm hq

/-- Built tables are padded (R201, R205). -/
theorem rowPadded_storeTables (hM : extra ≤ M) (hrows : ∀ row ∈ rows, row.length = M) (m : Nat) (hm : m < rows.length) :
    (s.storeTables M R rows).rowPadded M m := by
  intro k hk
  have hrow : rows[m].length = M := hrows _ (List.getElem_mem hm)
  have hwraps := paddedRow_wraps rows[m] (by rw [hrow]; exact hM) k hk
  rw [hrow] at hwraps
  have word (q : Nat) (hq : q < M + 2 * extra) := rowWord_storeTables (s := s) (R := R) hM hrows m q hm hq
  rw [word _ (by omega), word _ (by omega), word _ (by omega), word _ (by omega)]
  exact hwraps

end

/-- A build that succeeds keeps the invariant and may set TABLES_VALID (R53, R205, R287). -/
theorem State.Inv.storeTables {s : State} (h : s.Inv) {R : Word} {rows : List (List Word)}
    (hM : legalLength s.tableSize.toNat s.cfg.tableSizeMax) (hlen : rows.length = numBands)
    (hrows : ∀ row ∈ rows, row.length = s.tableSize.toNat) : (s.storeTables s.tableSize.toNat R rows).Inv := by
  have hextra : extra ≤ s.tableSize.toNat := hM.2.1
  have hb : ramBlock s.cfg (tabOffset 0) (rows.flatMap paddedRow).length := by
    refine ramBlock_tab _ _ _ (.inr ?_)
    rw [length_flatMap_paddedRow hextra hrows, hlen, Nat.zero_add, Config.tabWords]
    exact Nat.mul_le_mul_left _ (Nat.add_le_add_right hM.2.2 _)
  obtain ⟨hwf, hlisted⟩ := Memory.inRam_writeWords h.inRam hb
  exact { h with
    memory := hwf
    listed := hlisted
    small := ⟨h.small.1, toNat_ofNat_of_small (h.gateCount_small _ hM)⟩
    tables := fun _ => ⟨hM, fun m hm => rowPadded_storeTables hextra hrows m (hlen ▸ hm)⟩ }

/-! ## The invariant under the commands -/

/-- Every command that succeeds keeps the invariant, up to its completion. -/
theorem commandOf_keeps_inv {i : Instr} {s u : State} (h : s.Inv) (hu : commandOf i s = .ok u) : u.Inv := by
  cases i with
  | nop => cases hu; exact h
  | fftFwd =>
    obtain ⟨hL, rfl⟩ := fftFwdCommand_ok hu
    exact h.storeProfile (forwardProfile_length_le _ (words_length ..) hL)
  | synth b =>
    obtain ⟨hb, hM, row, K, hrow, rfl⟩ := synthCommand_ok hu
    obtain ⟨rfl, rfl, -⟩ := synthRow_ok _ _ _ _ _ _ _ hrow
    exact h.storeRow hb hM (irfft_length ..) (h.gateCount_small _ hM)
  | indexF => cases hu; exact h.setIndex _
  | indexX => cases hu; exact h.setIndex _
  | rangeI => cases hu; exact h.setRange (clampedIndex_le s)
  | rangeF => cases hu; exact h.setRange (bandOfIndex_le _)
  | cutoff b =>
    obtain ⟨-, hM, rfl⟩ := cutoffCommand_ok hu
    exact { h with small := ⟨toNat_ofNat_of_small (h.gateCount_small _ hM), h.small.2⟩ }
  | padRow b =>
    obtain ⟨hb, hM, rfl⟩ := padRowCommand_ok hu
    exact h.padRow_invalid hb hM
  | padAll =>
    obtain ⟨hM, rfl⟩ := padAllCommand_ok hu
    exact h.padAll_invalid hM
  | build =>
    obtain ⟨hM, rows, hrows, rfl⟩ := buildCommand_ok hu
    obtain ⟨hlen, hrow⟩ := buildRows_ok hrows
    exact h.storeTables hM hlen hrow
  | buildAudio =>
    obtain ⟨hL, hM, H, rows, rfl, hrows, rfl⟩ := buildAudioCommand_ok hu
    obtain ⟨hlen, hrow⟩ := buildRows_ok hrows
    have hp := h.storeProfile (forwardProfile_length_le _ (words_length s (sampleOffset 0) _) hL)
    exact hp.storeTables hM hlen hrow

/-- The engine's transition keeps the invariant: the command's writes and its completion, or the completion with an error. -/
theorem engineStep_keeps_inv {s t : State} (h : s.Inv) (ht : engineStep s = .next t) : t.Inv := by
  rcases engineStep_cases s with ⟨i, -, he⟩ | ⟨code, -, he⟩ <;> rw [he] at ht
  · rw [exec_eq_finish] at ht
    rcases finish_cases _ _ _ ht with ⟨u, hu, rfl⟩ | ⟨code, -, rfl⟩
    · exact (commandOf_keeps_inv h hu).complete .ok
    · exact h.complete code
  · cases ht
    exact h.complete code

/-! ## The invariant under the events from outside -/

/-- A reset leaves the invariant whatever RAM words it keeps (R270, R272). -/
theorem inv_afterReset {c : Config} {m : Memory} (hc : c.wf) (hm : m.inRam c) (epoch draws : Nat) (es : List HostEvent)
    (r : Option Response) : ({ State.afterHardReset c epoch draws es with mem := m, response := r }).Inv where
  config := hc
  memory := hm.1
  listed := hm.2
  error := ⟨nofun, fun h => absurd rfl h⟩
  specLen := Nat.zero_le _
  inFlight := nofun
  small := ⟨Nat.two_pow_pos 14, Nat.two_pow_pos 14⟩
  tables := nofun

theorem State.Inv.hardReset {s : State} (h : s.Inv) : s.hardReset.Inv :=
  inv_afterReset h.config ⟨List.Pairwise.nil, fun _ hx => absurd hx List.not_mem_nil⟩ _ _ _ _

theorem State.Inv.softReset {s : State} (h : s.Inv) : s.softReset.Inv := by
  obtain ⟨hcfg, hmem⟩ := abort_inRam s h.inRam
  rw [← hcfg] at hmem
  exact inv_afterReset (hcfg ▸ h.config) hmem _ _ _ _

theorem State.Inv.whenIdle {s t : State} (h : s.Inv) (ht : t.Inv) : (s.whenIdle t).Inv := by
  unfold State.whenIdle
  split
  · exact { h with }
  · exact ht

theorem specLenValue_le (c : Config) (v : Word) : (specLenValue c v).toNat ≤ c.specCap := by
  unfold specLenValue
  split
  · rw [BitVec.toNat_ofNat]
    exact Nat.mod_le _ _
  · omega

theorem State.Inv.accept {s : State} (h : s.Inv) (c : Word) : (s.accept c).Inv :=
  { h with error := ⟨nofun, fun h => absurd rfl h⟩, inFlight := fun _ => ⟨rfl, rfl⟩ }

/-- Clearing STATUS bits keeps ERR and ERRCODE together (R31). -/
theorem State.Inv.writeStatus {s : State} (h : s.Inv) (v : Word) : (s.writeStatus v).Inv := by
  refine { h with error := ?_, inFlight := fun hb => ?_ }
  · cases hv : v.getLsbD 2 <;> simp [hv, h.error, and_comm]
  · obtain ⟨hdone, herr⟩ := h.inFlight hb
    simp [hdone, herr]

theorem State.Inv.writeReg {s : State} (h : s.Inv) (r : Reg) (v : Word) : (s.writeReg r v).Inv := by
  cases r with
  | id | version | caps0 | caps1 | caps2 | result0 | result1 | resultIndex | harmCount => exact h
  | ctrl =>
    change (if v.getLsbD 0 then s.softReset else s).Inv
    split
    · exact h.softReset
    · exact h
  | irqEn => exact { h with }
  | status => exact h.writeStatus v
  | cmd =>
    change (if s.isBusy then { s with cmdOverrun := true } else s.accept v).Inv
    split
    · exact { h with }
    · exact h.accept v
  | srcLen | refRate | amplitude | cutoff | freq | index => exact h.whenIdle { h with }
  | tableSize => exact h.whenIdle { h with tables := nofun }
  | specLen => exact h.whenIdle { h with specLen := specLenValue_le s.cfg v }

/-- An OKAY write keeps the invariant (R53, R62, R66, R70). -/
theorem State.Inv.hostWrite {s : State} (h : s.Inv) {a : Nat} (ha : a % 4 = 0) (v : Word) : (s.hostWrite a v).Inv := by
  obtain ⟨-, -, hsrc, -⟩ := h.config
  unfold State.hostWrite
  cases hloc : locate s.cfg a with
  | reg r => exact h.writeReg r v
  | reserved | f2i | sf | unmapped => exact h
  | sample =>
    have hr := locate_eq_sample hloc
    refine h.whenIdle (h.writeRam_below_tab (ramBlock_one ha (.inl hr)) ?_)
    simp only [sampleOffset, List.length_singleton] at hr ⊢
    omega
  | spec =>
    have hr := locate_eq_spec hloc
    refine h.whenIdle (h.writeRam_below_tab (ramBlock_one ha (.inr (.inl hr))) ?_)
    simp only [specOffset, Config.specCap, List.length_singleton] at hr ⊢
    omega
  | tab => exact h.whenIdle (h.writeRam_invalid (ramBlock_one ha (.inr (.inr (locate_eq_tab hloc)))))

/-- A write that is not refused is aligned (R62(c)). -/
theorem aligned_of_not_refused {c : Config} {a : Nat} {narrow : Bool} {lanes : BitVec 4}
    (h : ¬ writeRefused c a narrow lanes = true) : a % 4 = 0 := by
  by_contra ha
  have hal : aligned a = false := by simpa [aligned] using ha
  exact h (by simp [writeRefused, hal])

theorem State.Inv.hostEvent {s : State} (h : s.Inv) (e : HostEvent) : (s.hostEvent e).Inv := by
  cases e with
  | read a narrow => exact { h with }
  | write a narrow lanes v =>
    change (if writeRefused s.cfg a.toNat narrow lanes then { s with response := some .errorWrite }
      else { s.hostWrite a.toNat v with response := some .okayWrite }).Inv
    split
    · exact { h with }
    · next hr => exact { h.hostWrite (aligned_of_not_refused hr) v with }
  | hardReset => exact h.hardReset

/-- Settles O10: a step is nothing, an event from outside, or the engine's transition, and each keeps the invariant. -/
theorem stepKeepsInvariant : Obligations.StepKeepsInvariant := by
  intro s t h ht
  rcases step_cases s with ⟨-, -, hs⟩ | ⟨e, es, -, -, hs⟩ | ⟨n, e, es, hbusy, -, hs⟩ | ⟨n, -, -, hs⟩ <;> rw [hs] at ht
  · cases ht
    exact h
  · cases ht
    exact State.Inv.hostEvent (s := { s with host := es }) { h with } e
  · cases ht
    have hflight := h.inFlight (by simp [State.isBusy, hbusy])
    exact State.Inv.hostEvent (s := { s with host := es, engine := .busy n }) { h with inFlight := fun _ => hflight } e
  · exact engineStep_keeps_inv h ht

end Sys2Proof.Machine

/-! # Rounding to binary32

Bits 30:0 count the binary32 magnitudes in rising order; `roundMag` finds the two neighbours that hold the quotient and
takes the nearer one (R10). -/

namespace Sys2Proof.Machine

/-! ## The magnitudes -/

/-- The magnitude of the encoding that keeps `m`, of at most 24 bits, and drops `s` bits. -/
theorem magOf_shift (s m : Nat) (hm : m ≤ 2 ^ 24) (h : s = 0 ∨ 2 ^ 23 ≤ m) : magOf (s * 2 ^ 23 + m) = m * 2 ^ s := by
  unfold magOf
  rcases Nat.lt_or_ge m (2 ^ 23) with hsub | hnorm
  · obtain rfl : s = 0 := by omega
    rw [if_pos (by omega)]
    omega
  rw [if_neg (by omega)]
  rcases Nat.lt_or_ge m (2 ^ 24) with hlt | hge
  · rw [show (s * 2 ^ 23 + m) % 2 ^ 23 = m - 2 ^ 23 by omega, show (s * 2 ^ 23 + m) / 2 ^ 23 - 1 = s by omega,
      Nat.add_sub_cancel' hnorm]
  · obtain rfl : m = 2 ^ 24 := by omega
    rw [show (s * 2 ^ 23 + 2 ^ 24) % 2 ^ 23 = 0 by omega, show (s * 2 ^ 23 + 2 ^ 24) / 2 ^ 23 - 1 = s + 1 by omega]
    ring

theorem magOf_lt_succ (e : Nat) : magOf e < magOf (e + 1) := by
  rcases Nat.lt_or_ge e (2 ^ 23) with hsub | hnorm
  · have h0 := magOf_shift 0 e (by omega) (.inl rfl)
    have h1 := magOf_shift 0 (e + 1) (by omega) (.inl rfl)
    simp only [Nat.zero_mul, Nat.zero_add, Nat.pow_zero, Nat.mul_one] at h0 h1
    omega
  · obtain ⟨s, m, hm, hm', rfl⟩ : ∃ s m, 2 ^ 23 ≤ m ∧ m < 2 ^ 24 ∧ e = s * 2 ^ 23 + m :=
      ⟨e / 2 ^ 23 - 1, 2 ^ 23 + e % 2 ^ 23, by omega, by omega, by omega⟩
    rw [Nat.add_assoc, magOf_shift s m (by omega) (.inr hm), magOf_shift s (m + 1) (by omega) (.inr (by omega))]
    exact Nat.mul_lt_mul_of_pos_right (Nat.lt_succ_self m) (Nat.two_pow_pos s)

theorem magOf_strictMono : StrictMono magOf := strictMono_nat_of_lt_succ magOf_lt_succ

theorem cast_magOf_lt {a b : Nat} (h : a < b) : (magOf a : ℝ) < magOf b := Nat.cast_lt.mpr (magOf_strictMono h)

@[simp] theorem magOf_zero : magOf 0 = 0 := rfl

theorem magOf_eq_zero_iff {e : Nat} : magOf e = 0 ↔ e = 0 :=
  magOf_strictMono.injective.eq_iff' magOf_zero

/-- Infinity stands for 2^128, in units of 2^-149 (R10). -/
theorem magOf_inf : magOf 0x7F800000 = 2 ^ 24 * 2 ^ 253 := magOf_shift 253 (2 ^ 24) le_rfl (.inr (by norm_num))

/-! ## The nearest magnitude -/

section
variable {A B x : ℝ}

theorem abs_sub_lt_iff_of_lt (h : A < B) : |A - x| < |B - x| ↔ 2 * x < A + B := by
  rw [← sq_lt_sq]
  constructor <;> intro hx <;> nlinarith

theorem abs_sub_eq_iff_of_lt (h : A < B) : |A - x| = |B - x| ↔ 2 * x = A + B := by
  rw [← sq_eq_sq_iff_abs_eq_abs]
  constructor <;> intro hx
  · have : (B - A) * (A + B - 2 * x) = 0 := by linarith
    rcases mul_eq_zero.mp this with h0 | h0 <;> linarith
  · nlinarith

theorem abs_sub_lt_iff_of_gt (h : A < B) : |B - x| < |A - x| ↔ A + B < 2 * x := by
  rw [← not_iff_not, not_lt, not_lt, le_iff_lt_or_eq, le_iff_lt_or_eq, abs_sub_lt_iff_of_lt h, abs_sub_eq_iff_of_lt h]

end

/-- The nearest magnitude, by the midpoints between it and the others. -/
theorem isNearestMag_iff (x : ℝ) (e : Nat) :
    IsNearestMag x e ↔ e ≤ 0x7F800000 ∧ ∀ e' ≤ 0x7F800000,
      (e < e' → 2 * x < (magOf e : ℝ) + magOf e' ∨ (2 * x = (magOf e : ℝ) + magOf e' ∧ e % 2 = 0)) ∧
      (e' < e → (magOf e' : ℝ) + magOf e < 2 * x ∨ (2 * x = (magOf e' : ℝ) + magOf e ∧ e % 2 = 0)) := by
  refine and_congr_right fun _ => forall_congr' fun e' => forall_congr' fun _ => ?_
  rcases Nat.lt_trichotomy e e' with h | rfl | h
  · rw [abs_sub_lt_iff_of_lt (cast_magOf_lt h), abs_sub_eq_iff_of_lt (cast_magOf_lt h)]
    simp [h, h.ne', h.not_gt]
  · simp
  · rw [abs_sub_lt_iff_of_gt (cast_magOf_lt h), eq_comm (a := |_|), abs_sub_eq_iff_of_lt (cast_magOf_lt h)]
    simp [h, h.ne, h.not_gt]

/-- What rounds to one magnitude is an interval. -/
theorem IsNearestMag.of_between {x y z : ℝ} {e : Nat} (hx : IsNearestMag x e) (hz : IsNearestMag z e) (hxy : x ≤ y)
    (hyz : y ≤ z) : IsNearestMag y e := by
  rw [isNearestMag_iff] at *
  obtain ⟨he, hx⟩ := hx
  obtain ⟨-, hz⟩ := hz
  refine ⟨he, fun e' he' => ⟨fun hlt => ?_, fun hlt => ?_⟩⟩
  · rcases (hz e' he').1 hlt with h | ⟨h, heven⟩
    · exact .inl (by linarith)
    · exact (lt_or_eq_of_le (by linarith : 2 * y ≤ _)).imp_right fun h' => ⟨h', heven⟩
  · rcases (hx e' he').2 hlt with h | ⟨h, heven⟩
    · exact .inl (by linarith)
    · exact (lt_or_eq_of_le (by linarith : _ ≤ 2 * y)).imp_right fun h' => ⟨h'.symm, heven⟩

/-- Between two neighbours the nearest is told by their midpoint. -/
theorem isNearestMag_of_neighbours {x : ℝ} {E : Nat} (hE : E + 1 ≤ 0x7F800000) (hlo : (magOf E : ℝ) ≤ x)
    (hhi : x ≤ magOf (E + 1)) :
    (2 * x < (magOf E : ℝ) + magOf (E + 1) ∨ (2 * x = (magOf E : ℝ) + magOf (E + 1) ∧ E % 2 = 0) → IsNearestMag x E) ∧
    ((magOf E : ℝ) + magOf (E + 1) < 2 * x ∨ (2 * x = (magOf E : ℝ) + magOf (E + 1) ∧ E % 2 = 1) →
      IsNearestMag x (E + 1)) := by
  have hstep := cast_magOf_lt (Nat.lt_succ_self E)
  simp only [isNearestMag_iff]
  refine ⟨fun h => ⟨by omega, fun e' _ => ⟨fun hlt => ?_, fun hlt => ?_⟩⟩,
    fun h => ⟨hE, fun e' _ => ⟨fun hlt => ?_, fun hlt => ?_⟩⟩⟩
  · rcases eq_or_lt_of_le (Nat.succ_le_of_lt hlt) with rfl | hlt'
    · exact h
    · have := cast_magOf_lt hlt'
      exact .inl (by rcases h with h | ⟨h, -⟩ <;> simp only [Nat.succ_eq_add_one] at * <;> linarith)
  · have := cast_magOf_lt hlt
    exact .inl (by linarith)
  · have := cast_magOf_lt hlt
    exact .inl (by linarith)
  · rcases eq_or_lt_of_le (Nat.le_of_lt_succ hlt) with rfl | hlt'
    · exact h.imp_right fun ⟨h, hodd⟩ => ⟨h, by omega⟩
    · have := cast_magOf_lt hlt'
      exact .inl (by rcases h with h | ⟨h, -⟩ <;> linarith)

/-- The midpoint of two neighbours goes to the even one. -/
theorem isNearestMag_of_tie {x : ℝ} {E : Nat} (hE : E + 1 ≤ 0x7F800000)
    (hmid : 2 * x = (magOf E : ℝ) + magOf (E + 1)) : IsNearestMag x (if E % 2 = 0 then E else E + 1) := by
  have hstep := cast_magOf_lt (Nat.lt_succ_self E)
  obtain ⟨down, up⟩ := isNearestMag_of_neighbours hE (by linarith : _ ≤ x) (by linarith)
  split
  · next heven => exact down (.inr ⟨hmid, heven⟩)
  · next hodd => exact up (.inr ⟨hmid, by omega⟩)

/-- From 2^128 up the nearest is infinity (R10). -/
theorem isNearestMag_inf {x : ℝ} (h : (magOf 0x7F800000 : ℝ) ≤ x) : IsNearestMag x 0x7F800000 := by
  rw [isNearestMag_iff]
  refine ⟨le_rfl, fun e' he' => ⟨fun hlt => by omega, fun hlt => .inl ?_⟩⟩
  have := cast_magOf_lt hlt
  linarith

/-! ## `roundMag` -/

/-- The quotient by the bits kept has at most 24 bits, and exactly 24 where bits are dropped. -/
theorem kept_quotient_bounds (num den : Nat) :
    let s := Nat.log2 (num / den) - 23
    num / (den * 2 ^ s) < 2 ^ 24 ∧ (s = 0 ∨ 2 ^ 23 ≤ num / (den * 2 ^ s)) := by
  intro s
  rw [← Nat.div_div_eq_div_mul]
  have hupper : num / den < 2 ^ (Nat.log2 (num / den) + 1) := Nat.lt_log2_self
  refine ⟨?_, ?_⟩
  · rw [Nat.div_lt_iff_lt_mul (Nat.two_pow_pos s), ← pow_add]
    exact hupper.trans_le (Nat.pow_le_pow_right (by norm_num) (by omega))
  · rcases Nat.eq_zero_or_pos s with hs | hs
    · exact .inl hs
    · have hne : num / den ≠ 0 := fun h0 => by simp [s, h0] at hs
      rw [Nat.le_div_iff_mul_le (Nat.two_pow_pos s), ← pow_add]
      exact .inr ((Nat.pow_le_pow_right (by norm_num) (by omega)).trans (Nat.log2_self_le hne))

/-- A quotient lies below, at or above the midpoint of its neighbours as twice the remainder does to the divisor. -/
theorem quotient_midpoint {num den s Q R : Nat} (hden : 0 < den) (hdiv : den * 2 ^ s * Q + R = num) :
    (2 * ((num : ℝ) / den) < (Q : ℝ) * 2 ^ s + (Q + 1) * 2 ^ s ↔ 2 * R < den * 2 ^ s) ∧
    (2 * ((num : ℝ) / den) = (Q : ℝ) * 2 ^ s + (Q + 1) * 2 ^ s ↔ 2 * R = den * 2 ^ s) ∧
    ((Q : ℝ) * 2 ^ s + (Q + 1) * 2 ^ s < 2 * ((num : ℝ) / den) ↔ den * 2 ^ s < 2 * R) := by
  have hden' : (0 : ℝ) < den := by exact_mod_cast hden
  have hmid : 2 * ((num : ℝ) / den) - ((Q : ℝ) * 2 ^ s + (Q + 1) * 2 ^ s) = ((2 * R : Nat) - (den * 2 ^ s : Nat)) / den := by
    rw [← hdiv]
    push_cast
    field_simp
    ring
  refine ⟨?_, ?_, ?_⟩
  · rw [← sub_neg, hmid, div_lt_iff₀ hden', zero_mul, sub_neg, Nat.cast_lt]
  · rw [← sub_eq_zero, hmid, div_eq_zero_iff, or_iff_left hden'.ne', sub_eq_zero, Nat.cast_inj]
  · rw [← sub_pos, hmid, lt_div_iff₀ hden', zero_mul, sub_pos, Nat.cast_lt]

/-- The quotient rounded to `s` bits fewer, ties to even, is the nearest magnitude. -/
theorem divRoundEven_isNearestMag (num den s : Nat) (hden : 0 < den) (hQ : num / (den * 2 ^ s) < 2 ^ 24)
    (hs : s = 0 ∨ 2 ^ 23 ≤ num / (den * 2 ^ s)) :
    IsNearestMag ((num : ℝ) / den) (min 0x7F800000 (s * 2 ^ 23 + divRoundEven num (den * 2 ^ s))) := by
  obtain ⟨Q, R, hQdef, hRdef, hRlt, hdiv⟩ : ∃ Q R, num / (den * 2 ^ s) = Q ∧ num % (den * 2 ^ s) = R ∧
      R < den * 2 ^ s ∧ den * 2 ^ s * Q + R = num :=
    ⟨_, _, rfl, rfl, Nat.mod_lt num (Nat.mul_pos hden (Nat.two_pow_pos s)), Nat.div_add_mod num _⟩
  simp only [divRoundEven, hQdef, hRdef] at hQ hs ⊢
  obtain ⟨E, hE⟩ : ∃ E, s * 2 ^ 23 + Q = E := ⟨_, rfl⟩
  have hlo : magOf E = Q * 2 ^ s := hE ▸ magOf_shift s Q (by omega) hs
  have hhi : magOf (E + 1) = (Q + 1) * 2 ^ s := by
    rw [← hE, Nat.add_assoc]
    exact magOf_shift s (Q + 1) (by omega) (by omega)
  have hden' : (0 : ℝ) < den := by exact_mod_cast hden
  have hxlo : (magOf E : ℝ) ≤ (num : ℝ) / den := by
    rw [hlo, le_div_iff₀ hden']
    exact_mod_cast (by rw [← hdiv]; nlinarith)
  have hxhi : (num : ℝ) / den ≤ magOf (E + 1) := by
    rw [hhi, div_le_iff₀ hden']
    exact_mod_cast (by rw [← hdiv]; nlinarith)
  rcases Nat.lt_or_ge E 0x7F800000 with hfin | hinf
  · obtain ⟨down, up⟩ := isNearestMag_of_neighbours hfin hxlo hxhi
    obtain ⟨below, tie, above⟩ := quotient_midpoint hden hdiv
    rw [hlo, hhi] at down up
    push_cast at down up
    split_ifs with hup
    · rw [← Nat.add_assoc, hE, Nat.min_eq_right hfin]
      exact up (hup.imp above.mpr fun ⟨h, hodd⟩ => ⟨tie.mpr h, by omega⟩)
    · rw [hE, Nat.min_eq_right hfin.le]
      exact down ((Nat.lt_or_ge (2 * R) (den * 2 ^ s)).imp below.mpr fun h => ⟨tie.mpr (by omega), by omega⟩)
  · rw [Nat.min_eq_left (by split_ifs <;> omega)]
    exact isNearestMag_inf ((Nat.cast_le.mpr (magOf_strictMono.monotone hinf)).trans hxlo)

theorem roundMag_isNearestMag (num den : Nat) (hden : 0 < den) : IsNearestMag ((num : ℝ) / den) (roundMag num den) := by
  obtain ⟨hQ, hs⟩ := kept_quotient_bounds num den
  exact divRoundEven_isNearestMag num den _ hden hQ hs

/-! ## RN32 -/

theorem roundMag_zero (den : Nat) : roundMag 0 den = 0 := by
  simp [roundMag, divRoundEven]

theorem isNearestMag_zero : IsNearestMag 0 0 := by
  have h := roundMag_isNearestMag 0 1 Nat.one_pos
  rwa [roundMag_zero, Nat.cast_zero, zero_div] at h

/-- A real is rounded by its sign and its magnitude. -/
theorem isRn32_mkWord {r : ℝ} {neg : Bool} {e : Nat} (he : IsNearestMag |r| e) (hneg : neg = true ↔ r < 0) :
    IsRn32 r (mkWord neg e) := by
  refine ⟨e, he, fun h => ?_, fun h => ?_⟩
  · rw [hneg.mpr h]
  · rw [Bool.eq_false_iff.mpr fun ht => absurd (hneg.mp ht) h.not_gt]

theorem isRn32_zero : IsRn32 0 posZero :=
  isRn32_mkWord (neg := false) (by rw [abs_zero]; exact isNearestMag_zero) (by simp)

/-- Settles O13: the sign is the numerator's, and the magnitude is rounded by `roundMag`. -/
theorem rationalsRoundToNearestEven : Obligations.RationalsRoundToNearestEven := by
  intro num den hden
  have hden' : (0 : ℝ) < den := by exact_mod_cast hden
  refine isRn32_mkWord ?_ ?_
  · rw [abs_div, Nat.abs_cast, ← Int.cast_abs, ← Nat.cast_natAbs]
    exact roundMag_isNearestMag _ _ hden
  · rw [decide_eq_true_iff, div_neg_iff]
    simp [hden', hden'.not_gt]

/-! ## The parts of a word (R9) -/

theorem magBits_lt (w : Word) : magBits w < 2 ^ 31 := Nat.mod_lt _ (by norm_num)

theorem toNat_mkWord (neg : Bool) {e : Nat} (he : e < 2 ^ 31) :
    (mkWord neg e).toNat = (if neg then 2 ^ 31 else 0) + e := by
  rw [mkWord, BitVec.toNat_ofNat]
  split <;> omega

theorem signBit_eq (w : Word) : signBit w = decide (2 ^ 31 ≤ w.toNat) := BitVec.msb_eq_decide w

theorem signBit_mkWord (neg : Bool) {e : Nat} (he : e < 2 ^ 31) : signBit (mkWord neg e) = neg := by
  rw [signBit_eq, toNat_mkWord neg he]
  cases neg
  · simpa using he
  · simp

theorem magBits_mkWord (neg : Bool) {e : Nat} (he : e < 2 ^ 31) : magBits (mkWord neg e) = e := by
  rw [magBits, toNat_mkWord neg he]
  split <;> omega

/-- A word is its sign and its bits 30:0. -/
theorem mkWord_signBit_magBits (w : Word) : mkWord (signBit w) (magBits w) = w := by
  apply BitVec.eq_of_toNat_eq
  have := w.isLt
  rw [toNat_mkWord _ (magBits_lt w), signBit_eq, magBits]
  simp only [decide_eq_true_eq]
  split <;> omega

theorem isNaN_iff (w : Word) : isNaN w = true ↔ 0x7F800000 < magBits w := by
  have := magBits_lt w
  simp only [isNaN, expField, fracField, Bool.and_eq_true, beq_iff_eq, bne_iff_ne]
  simp only [magBits] at *
  omega

theorem isInf_iff (w : Word) : isInf w = true ↔ magBits w = 0x7F800000 := by
  have := magBits_lt w
  simp only [isInf, expField, fracField, Bool.and_eq_true, beq_iff_eq]
  simp only [magBits] at *
  omega

theorem isFinite_iff (w : Word) : isFinite w = true ↔ magBits w < 0x7F800000 := by
  have := magBits_lt w
  simp only [isFinite, expField, bne_iff_ne]
  omega

theorem scaled_mkWord (neg : Bool) {e : Nat} (he : e < 2 ^ 31) :
    scaled (mkWord neg e) = if neg then -(magOf e : Int) else magOf e := by
  rw [scaled, signBit_mkWord neg he, magBits_mkWord neg he]

theorem natAbs_scaled (w : Word) : (scaled w).natAbs = magOf (magBits w) := by
  unfold scaled
  split <;> simp

theorem abs_scaled (w : Word) : |(scaled w : ℝ)| = magOf (magBits w) := by
  rw [← natAbs_scaled, Nat.cast_natAbs, Int.cast_abs]

theorem scaled_eq_zero_iff {w : Word} : scaled w = 0 ↔ magBits w = 0 := by
  rw [← Int.natAbs_eq_zero, natAbs_scaled, magOf_eq_zero_iff]

/-- The sign of a nonzero value is the sign bit. -/
theorem signBit_eq_true_iff {w : Word} (h : scaled w ≠ 0) : signBit w = true ↔ (scaled w : ℝ) < 0 := by
  have hpos : 0 < magOf (magBits w) := by
    rw [← natAbs_scaled]
    exact Int.natAbs_pos.mpr h
  rw [Int.cast_lt_zero, scaled]
  split <;> simp_all

/-! ### Negation -/

theorem magBits_neg32 (v : Word) : magBits (neg32 v) = magBits v := by
  rw [magBits, neg32, BitVec.toNat_xor, Nat.xor_mod_two_pow]
  simp [magBits]

theorem signBit_neg32 (v : Word) : signBit (neg32 v) = !signBit v := by
  rw [signBit, neg32, BitVec.msb_xor, show (0x80000000#32).msb = true by decide, Bool.xor_true, signBit]

theorem scaled_neg32 (v : Word) : scaled (neg32 v) = -scaled v := by
  simp only [scaled, signBit_neg32, magBits_neg32]
  cases signBit v <;> simp

@[simp] theorem isNaN_neg32 (v : Word) : isNaN (neg32 v) = isNaN v := by
  rw [Bool.eq_iff_iff, isNaN_iff, isNaN_iff, magBits_neg32]

@[simp] theorem isInf_neg32 (v : Word) : isInf (neg32 v) = isInf v := by
  rw [Bool.eq_iff_iff, isInf_iff, isInf_iff, magBits_neg32]

@[simp] theorem isFinite_neg32 (v : Word) : isFinite (neg32 v) = isFinite v := by
  rw [Bool.eq_iff_iff, isFinite_iff, isFinite_iff, magBits_neg32]

theorem getLsbD_neg32 (v : Word) (k : Nat) (hk : k < 32) :
    (neg32 v).getLsbD k = if k = 31 then !v.getLsbD k else v.getLsbD k := by
  have hflip : (0x80000000#32).getLsbD k = decide (k = 31) := by
    revert k
    decide
  rw [neg32, BitVec.getLsbD_xor, hflip]
  split <;> simp_all

/-! ### A NaN result -/

theorem toNat_append_eq {n m : Nat} (x : BitVec n) (y : BitVec m) : (x ++ y).toNat = x.toNat * 2 ^ m + y.toNat := by
  rw [BitVec.toNat_append, ← Nat.shiftLeft_add_eq_or_of_lt y.isLt, Nat.shiftLeft_eq]

theorem isNaN_nanResult (a b : Word) : isNaN (nanResult a b) = true := by
  rw [isNaN_iff, magBits, nanResult, toNat_append_eq, toNat_append_eq]
  have := ((Config.nanBits a b).extractLsb' 22 1).isLt
  have := ((Config.nanBits a b).extractLsb' 0 22).isLt
  simp only [BitVec.toNat_ofNat]
  omega

/-! ## The operations, by the classes of their operands (R10) -/

theorem isNaN_of_isFinite {w : Word} (h : isFinite w = true) : isNaN w = false := by
  rw [isFinite_iff] at h
  rw [Bool.eq_false_iff, ne_eq, isNaN_iff]
  omega

theorem isInf_of_isFinite {w : Word} (h : isFinite w = true) : isInf w = false := by
  rw [isFinite_iff] at h
  rw [Bool.eq_false_iff, ne_eq, isInf_iff]
  omega

theorem isNaN_of_isInf {w : Word} (h : isInf w = true) : isNaN w = false := by
  rw [isInf_iff] at h
  rw [Bool.eq_false_iff, ne_eq, isNaN_iff]
  omega

theorem magBits_ne_zero_of_isInf {w : Word} (h : isInf w = true) : magBits w ≠ 0 := by
  rw [isInf_iff] at h
  omega

/-- Infinity with the exclusive or of two signs. -/
theorem mkWord_xor_inf (p q : Bool) : mkWord (p != q) 0x7F800000 = if p = q then 0x7F800000#32 else 0xFF800000#32 := by
  cases p <;> cases q <;> rfl

/-- Zero with the exclusive or of two signs. -/
theorem mkWord_xor_zero (p q : Bool) : mkWord (p != q) 0 = if p = q then 0x00000000#32 else 0x80000000#32 := by
  cases p <;> cases q <;> rfl

section
variable {a b : Word}

theorem add32_nan (h : isNaN a = true ∨ isNaN b = true) : add32 a b = nanResult a b := by
  simp [add32, h]

theorem mul32_nan (h : isNaN a = true ∨ isNaN b = true) : mul32 a b = nanResult a b := by
  simp [mul32, h]

theorem div32_nan (h : isNaN a = true ∨ isNaN b = true) : div32 a b = nanResult a b := by
  simp [div32, h]

theorem add32_finite (ha : isFinite a = true) (hb : isFinite b = true) :
    add32 a b = if scaled a + scaled b = 0 then mkWord (signBit a && signBit b) 0 else rn32 (scaled a + scaled b) 1 := by
  simp [add32, isNaN_of_isFinite, isInf_of_isFinite, ha, hb]

theorem add32_inf_finite (ha : isInf a = true) (hb : isFinite b = true) : add32 a b = a := by
  simp [add32, isNaN_of_isFinite, isInf_of_isFinite, isNaN_of_isInf, ha, hb]

theorem add32_finite_inf (ha : isFinite a = true) (hb : isInf b = true) : add32 a b = b := by
  simp [add32, isNaN_of_isFinite, isInf_of_isFinite, isNaN_of_isInf, ha, hb]

theorem add32_inf_inf (ha : isInf a = true) (hb : isInf b = true) :
    add32 a b = if signBit a = signBit b then a else nanResult a b := by
  simp [add32, isNaN_of_isInf, ha, hb]

theorem mul32_finite (ha : isFinite a = true) (hb : isFinite b = true) :
    mul32 a b = mkWord (signBit a != signBit b) (roundMag (magOf (magBits a) * magOf (magBits b)) (2 ^ 149)) := by
  simp [mul32, isNaN_of_isFinite, isInf_of_isFinite, ha, hb]

theorem mul32_inf (h : isInf a = true ∨ isInf b = true) (ha : isNaN a = false) (hb : isNaN b = false) :
    mul32 a b =
      if scaled a = 0 ∨ scaled b = 0 then nanResult a b
      else if signBit a = signBit b then 0x7F800000#32 else 0xFF800000#32 := by
  simp [mul32, h, ha, hb, scaled_eq_zero_iff, mkWord_xor_inf]

theorem div32_finite (ha : isFinite a = true) (hb : isFinite b = true) :
    div32 a b =
      if scaled b = 0 then
        (if scaled a = 0 then nanResult a b else if signBit a = signBit b then 0x7F800000#32 else 0xFF800000#32)
      else mkWord (signBit a != signBit b) (roundMag (magOf (magBits a) * 2 ^ 149) (magOf (magBits b))) := by
  simp [div32, isNaN_of_isFinite, isInf_of_isFinite, ha, hb, scaled_eq_zero_iff, mkWord_xor_inf]

theorem div32_inf_finite (ha : isInf a = true) (hb : isFinite b = true) :
    div32 a b = if signBit a = signBit b then 0x7F800000#32 else 0xFF800000#32 := by
  simp [div32, isNaN_of_isFinite, isInf_of_isFinite, isNaN_of_isInf, ha, hb, mkWord_xor_inf]

theorem div32_finite_inf (ha : isFinite a = true) (hb : isInf b = true) :
    div32 a b = if signBit a = signBit b then 0x00000000#32 else 0x80000000#32 := by
  simp [div32, isNaN_of_isFinite, isInf_of_isFinite, isNaN_of_isInf, ha, hb, mkWord_xor_zero]

theorem div32_inf_inf (ha : isInf a = true) (hb : isInf b = true) : div32 a b = nanResult a b := by
  simp [div32, isNaN_of_isInf, ha, hb]

/-- The sign of a product or quotient is the exclusive or of the signs. -/
theorem xor_signs_iff (ha : scaled a ≠ 0) (hb : scaled b ≠ 0) :
    ((signBit a != signBit b) = true ↔ (scaled a : ℝ) * scaled b < 0) ∧
      ((signBit a != signBit b) = true ↔ (scaled a : ℝ) / scaled b < 0) := by
  have ha' : (scaled a : ℝ) ≠ 0 := by exact_mod_cast ha
  have hb' : (scaled b : ℝ) ≠ 0 := by exact_mod_cast hb
  have hsa := signBit_eq_true_iff ha
  have hsb := signBit_eq_true_iff hb
  have hxor : (signBit a != signBit b) = true ↔
      0 < (scaled a : ℝ) ∧ (scaled b : ℝ) < 0 ∨ (scaled a : ℝ) < 0 ∧ 0 < (scaled b : ℝ) := by
    have hpos {x : ℝ} (hx : x ≠ 0) : 0 < x ↔ ¬ x < 0 := by rw [not_lt, le_iff_lt_or_eq, or_iff_left hx.symm]
    rw [hpos ha', hpos hb', ← hsa, ← hsb]
    cases signBit a <;> cases signBit b <;> simp
  exact ⟨hxor.trans mul_neg_iff.symm, by rw [hxor, div_neg_iff]⟩

theorem add32_rounds (ha : isFinite a = true) (hb : isFinite b = true) (h : scaled a + scaled b ≠ 0) :
    IsRn32 ((scaled a : ℝ) + scaled b) (add32 a b) := by
  rw [add32_finite ha hb, if_neg h]
  simpa using rationalsRoundToNearestEven (scaled a + scaled b) 1 Nat.one_pos

theorem mul32_rounds (ha : isFinite a = true) (hb : isFinite b = true) (h : scaled a * scaled b ≠ 0) :
    IsRn32 ((scaled a : ℝ) * scaled b / 2 ^ 149) (mul32 a b) := by
  rw [mul32_finite ha hb]
  refine isRn32_mkWord ?_ ?_
  · rw [abs_div, abs_mul, abs_scaled, abs_scaled, abs_of_pos (by positivity : (0 : ℝ) < 2 ^ 149)]
    exact_mod_cast roundMag_isNearestMag (magOf (magBits a) * magOf (magBits b)) (2 ^ 149) (Nat.two_pow_pos _)
  · rw [(xor_signs_iff (left_ne_zero_of_mul h) (right_ne_zero_of_mul h)).1, div_neg_iff]
    simp [(by positivity : (0 : ℝ) < 2 ^ 149), (by positivity : (0 : ℝ) < 2 ^ 149).not_gt]

theorem div32_rounds (ha : isFinite a = true) (hb : isFinite b = true) (ha0 : scaled a ≠ 0) (hb0 : scaled b ≠ 0) :
    IsRn32 ((scaled a : ℝ) / scaled b * 2 ^ 149) (div32 a b) := by
  have hpos : 0 < magOf (magBits b) := Nat.pos_of_ne_zero fun h0 => hb0 (by rwa [← Int.natAbs_eq_zero, natAbs_scaled])
  rw [div32_finite ha hb, if_neg hb0]
  refine isRn32_mkWord ?_ ?_
  · rw [abs_mul, abs_div, abs_scaled, abs_scaled, abs_of_pos (by positivity : (0 : ℝ) < 2 ^ 149), div_mul_eq_mul_div]
    exact_mod_cast roundMag_isNearestMag (magOf (magBits a) * 2 ^ 149) (magOf (magBits b)) hpos
  · rw [(xor_signs_iff ha0 hb0).2, mul_neg_iff]
    simp [(by positivity : (0 : ℝ) < 2 ^ 149), (by positivity : (0 : ℝ) < 2 ^ 149).not_gt]

end

/-- Settles O14, class by class of the operands. -/
theorem operationsRoundOnce : Obligations.OperationsRoundOnce := by
  intro a b inf
  refine ⟨fun ha hb => ⟨add32_rounds ha hb, fun h => ?_, mul32_rounds ha hb, div32_rounds ha hb, fun h0 h1 => ?_,
      fun h0 h1 => ?_⟩,
    fun h => ?_, fun ha hb => ?_, fun ha hb => ?_, fun ha hb => ?_⟩
  · have hsub := add32_rounds (b := neg32 b) ha (by simpa using hb) (by rwa [scaled_neg32, ← sub_eq_add_neg])
    rwa [scaled_neg32, Int.cast_neg, ← sub_eq_add_neg] at hsub
  · rw [div32_finite ha hb, if_pos h1, if_neg h0]
  · rw [div32_finite ha hb, if_pos h1, if_pos h0]
    exact isNaN_nanResult a b
  · have h' : isNaN a = true ∨ isNaN (neg32 b) = true := by simpa using h
    rw [sub32, add32_nan h, add32_nan h', mul32_nan h, div32_nan h]
    simp only [isNaN_nanResult, and_self]
  · have ha0 : scaled a ≠ 0 := mt scaled_eq_zero_iff.mp (magBits_ne_zero_of_isInf ha)
    rw [sub32, add32_inf_finite ha hb, add32_inf_finite ha (by simpa using hb), div32_inf_finite ha hb,
      mul32_inf (.inl ha) (isNaN_of_isInf ha) (isNaN_of_isFinite hb)]
    exact ⟨rfl, rfl, rfl, fun h => if_neg (by tauto), fun h => by rw [if_pos (.inr h)]; exact isNaN_nanResult a b⟩
  · have hb0 : scaled b ≠ 0 := mt scaled_eq_zero_iff.mp (magBits_ne_zero_of_isInf hb)
    rw [sub32, add32_finite_inf ha hb, add32_finite_inf ha (by simpa using hb),
      mul32_inf (.inr hb) (isNaN_of_isFinite ha) (isNaN_of_isInf hb)]
    exact ⟨rfl, rfl, fun h => if_neg (by tauto), fun h => by rw [if_pos (.inl h)]; exact isNaN_nanResult a b⟩
  · have ha0 : scaled a ≠ 0 := mt scaled_eq_zero_iff.mp (magBits_ne_zero_of_isInf ha)
    have hb0 : scaled b ≠ 0 := mt scaled_eq_zero_iff.mp (magBits_ne_zero_of_isInf hb)
    rw [sub32, add32_inf_inf ha hb, add32_inf_inf ha (by simpa using hb), div32_inf_inf ha hb,
      mul32_inf (.inl ha) (isNaN_of_isInf ha) (isNaN_of_isInf hb), if_neg (by tauto), signBit_neg32]
    refine ⟨rfl, isNaN_nanResult a b, fun h => ?_, fun h => ?_⟩
    · simp [h, isNaN_nanResult]
    · simp [Bool.eq_not.mpr h, isNaN_nanResult]

/-- A product with a zero factor is the zero of the exclusive or of the signs. -/
theorem mul32_zero {x y : Word} (hx : isFinite x = true) (hy : isFinite y = true) (h : scaled x = 0 ∨ scaled y = 0) :
    mul32 x y = if signBit x = signBit y then 0x00000000#32 else 0x80000000#32 := by
  have hprod : magOf (magBits x) * magOf (magBits y) = 0 := by simpa [← natAbs_scaled] using h
  rw [mul32_finite hx hy, hprod, roundMag_zero, mkWord_xor_zero]

theorem div32_zero {x y : Word} (hx : isFinite x = true) (hy : isFinite y = true) (h0 : scaled x = 0)
    (h1 : scaled y ≠ 0) : div32 x y = if signBit x = signBit y then 0x00000000#32 else 0x80000000#32 := by
  have hnum : magOf (magBits x) = 0 := by rw [← natAbs_scaled, h0, Int.natAbs_zero]
  rw [div32_finite hx hy, if_neg h1, hnum, Nat.zero_mul, roundMag_zero, mkWord_xor_zero]

/-- A sum of nonzero values that cancels is +0. -/
theorem add32_cancel {x y : Word} (hx : isFinite x = true) (hy : isFinite y = true) (h0 : scaled x ≠ 0)
    (h : scaled x + scaled y = 0) : add32 x y = 0x00000000#32 := by
  have hsigns : (signBit x && signBit y) = false := by
    rw [Bool.eq_false_iff, ne_eq, Bool.and_eq_true, signBit_eq_true_iff h0,
      signBit_eq_true_iff (fun h1 => h0 (by omega)), Int.cast_lt_zero, Int.cast_lt_zero]
    omega
  rw [add32_finite hx hy, if_pos h, hsigns]
  rfl

theorem add32_zeros {x y : Word} (hx : isFinite x = true) (hy : isFinite y = true) (h0 : scaled x = 0)
    (h1 : scaled y = 0) :
    add32 x y = if signBit x = true ∧ signBit y = true then 0x80000000#32 else 0x00000000#32 := by
  rw [add32_finite hx hy, if_pos (by omega)]
  cases signBit x <;> cases signBit y <;> rfl

/-- Settles O15: the zero cases of the operations, and negation bit by bit. -/
theorem zeroResultsHaveIeeeSigns : Obligations.ZeroResultsHaveIeeeSigns := by
  refine ⟨getLsbD_neg32, fun x y hx => ⟨mul32_zero hx, div32_zero hx, div32_finite_inf hx, add32_cancel hx,
    fun hy h0 h => ?_, fun hy h0 h1 => ⟨add32_zeros hx hy h0 h1, ?_⟩⟩⟩
  · exact add32_cancel hx (by simpa using hy) h0 (by rw [scaled_neg32]; omega)
  · rw [sub32, add32_zeros hx (by simpa using hy) h0 (by rw [scaled_neg32, h1, neg_zero]), signBit_neg32]
    simp

end Sys2Proof.Machine

/-! # Sums of cosines and the exact test for zero

Twice a sum of cosines is the polynomial of `CosSum.coeffs` at a primitive root of unity ζ. A multiplication by x^d - 1 with
ζ^d ≠ 1 keeps a value that is not 0, so where the last product is the zero polynomial the sum is 0 (R152). -/

namespace Sys2Proof.Machine

/-! ## The value of a sum -/

/-- The real a sum of cosines stands for. -/
noncomputable def CosSum.value (s : CosSum) : ℝ :=
  (s.terms.map fun x => (x.1 : ℝ) * Real.cos (2 * Real.pi * x.2 / s.den)).sum

theorem CosSum.hasValue_iff (s : CosSum) (r : ℝ) : s.HasValue r ↔ r = s.value := Iff.rfl

theorem CosSum.value_cons (den : Nat) (x : Int × Nat) (l : List (Int × Nat)) :
    (⟨den, x :: l⟩ : CosSum).value = x.1 * Real.cos (2 * Real.pi * x.2 / den) + (⟨den, l⟩ : CosSum).value := by
  simp [CosSum.value]

theorem CosSum.value_nil (den : Nat) : (⟨den, []⟩ : CosSum).value = 0 := rfl

theorem CosSum.value_scale (k : Int) (s : CosSum) : (s.scale k).value = k * s.value := by
  simp [CosSum.value, CosSum.scale, Function.comp_def, mul_assoc, List.sum_map_mul_left]

theorem CosSum.value_addInt (q : Int) (s : CosSum) : (s.addInt q).value = q + s.value := by
  simp [CosSum.value, CosSum.addInt]

/-! ## Polynomials modulo x^n - 1, at a point -/

/-- The polynomial of a list of coefficients, lowest first, at a complex point. -/
noncomputable def evalAt (z : ℂ) : List Int → ℂ
  | [] => 0
  | c :: cs => c + z * evalAt z cs

theorem evalAt_append (z : ℂ) (as bs : List Int) : evalAt z (as ++ bs) = evalAt z as + z ^ as.length * evalAt z bs := by
  induction as with
  | nil => simp [evalAt]
  | cons a as ih =>
    simp only [List.cons_append, evalAt, ih, List.length_cons]
    ring

theorem evalAt_sub (z : ℂ) (as bs : List Int) (h : as.length = bs.length) :
    evalAt z (List.zipWith (· - ·) as bs) = evalAt z as - evalAt z bs := by
  induction as generalizing bs with
  | nil =>
    obtain rfl := List.length_eq_zero_iff.mp h.symm
    simp [evalAt]
  | cons a as ih =>
    cases bs with
    | nil => simp at h
    | cons b bs =>
      simp only [List.zipWith_cons_cons, evalAt, ih bs (by simpa using h), Int.cast_sub]
      ring

theorem evalAt_eq_zero_of_all (z : ℂ) (cs : List Int) (h : cs.all (· == 0) = true) : evalAt z cs = 0 := by
  induction cs with
  | nil => rfl
  | cons c cs ih =>
    simp only [List.all_cons, Bool.and_eq_true, beq_iff_eq] at h
    simp [evalAt, h.1, ih h.2]

theorem evalAt_map_range (z : ℂ) (f : Nat → Int) (n : Nat) :
    evalAt z ((List.range n).map f) = ∑ t ∈ Finset.range n, (f t : ℂ) * z ^ t := by
  induction n with
  | zero => rfl
  | succ n ih => simp [List.range_succ, evalAt_append, evalAt, ih, Finset.sum_range_succ, mul_comm]

section
variable {z : ℂ} {cs : List Int}

theorem length_mulRootDiff {d : Nat} (hd : d ≤ cs.length) : (mulRootDiff cs d).length = cs.length := by
  simp [mulRootDiff]
  omega

/-- Multiplying by x^d - 1 modulo x^n - 1 does so to the value at an n-th root of unity, up to a power of it. -/
theorem evalAt_mulRootDiff {d : Nat} (hd : d ≤ cs.length) (hz : z ^ cs.length = 1) :
    z ^ d * evalAt z (mulRootDiff cs d) = (z ^ d - 1) * evalAt z cs := by
  have hlen : (cs.take d).length = d := List.length_take_of_le hd
  have hsplit : evalAt z cs = evalAt z (cs.take d) + z ^ d * evalAt z (cs.drop d) := by
    conv_lhs => rw [← List.take_append_drop d cs, evalAt_append, hlen]
  have hpow : z ^ d * z ^ (cs.length - d) = 1 := by rw [← pow_add, Nat.add_sub_cancel' hd, hz]
  rw [mulRootDiff, evalAt_sub _ _ _ (by simp; omega), evalAt_append, List.length_drop]
  linear_combination hsplit - evalAt z (cs.take d) * hpow

/-- The products by x^d - 1 with z^d ≠ 1 vanish at z only if the polynomial does. -/
theorem evalAt_eq_zero_of_foldl (ds : List Nat) (hds : ∀ d ∈ ds, d ≤ cs.length ∧ z ^ d ≠ 1) (hz : z ^ cs.length = 1)
    (h : evalAt z (ds.foldl mulRootDiff cs) = 0) : evalAt z cs = 0 := by
  induction ds generalizing cs with
  | nil => exact h
  | cons d ds ih =>
    obtain ⟨hd, hne⟩ := hds d (List.mem_cons_self ..)
    have hlen := length_mulRootDiff hd
    have hprod : evalAt z (mulRootDiff cs d) = 0 :=
      ih (fun e he => by rw [hlen]; exact hds e (List.mem_cons_of_mem _ he)) (by rw [hlen]; exact hz) h
    have := evalAt_mulRootDiff hd hz
    rw [hprod, mul_zero, eq_comm, mul_eq_zero] at this
    exact this.resolve_left (sub_ne_zero.mpr hne)

end

/-! ## The root of unity -/

/-- e^(2πi/n). -/
noncomputable def unityRoot (n : Nat) : ℂ := Complex.exp (2 * Real.pi * Complex.I / n)

theorem unityRoot_pow (n t : Nat) : unityRoot n ^ t = Complex.exp ((2 * Real.pi * t / n : ℝ) * Complex.I) := by
  rw [unityRoot, ← Complex.exp_nat_mul]
  congr 1
  push_cast
  ring

theorem unityRoot_isPrimitive {n : Nat} (hn : 0 < n) : IsPrimitiveRoot (unityRoot n) n :=
  Complex.isPrimitiveRoot_exp n hn.ne'

/-- ζ^t + ζ^-t is twice the cosine. -/
theorem unityRoot_pow_add_inv {n : Nat} (hn : 0 < n) (t : Nat) :
    unityRoot n ^ (t % n) + unityRoot n ^ ((n - t % n) % n) = 2 * Real.cos (2 * Real.pi * t / n) := by
  have hone : unityRoot n ^ n = 1 := (unityRoot_isPrimitive hn).pow_eq_one
  have hinv : unityRoot n ^ ((n - t % n) % n) = (unityRoot n ^ t)⁻¹ := by
    rw [← pow_eq_pow_mod _ hone, pow_eq_pow_mod t hone]
    refine eq_inv_of_mul_eq_one_left ?_
    rw [← pow_add, Nat.sub_add_cancel (Nat.mod_lt t hn).le, hone]
  rw [← pow_eq_pow_mod _ hone, hinv, unityRoot_pow, ← Complex.exp_neg, Complex.ofReal_cos, Complex.cos, neg_mul]
  ring

/-- The polynomial of the coefficients is twice the sum, at ζ. -/
theorem evalAt_coeffs {s : CosSum} (hn : 0 < s.den) : evalAt (unityRoot s.den) s.coeffs = 2 * (s.value : ℂ) := by
  obtain ⟨n, terms⟩ := s
  rw [CosSum.coeffs, evalAt_map_range]
  dsimp only at hn ⊢
  induction terms with
  | nil => simp [CosSum.value_nil]
  | cons x terms ih =>
    have hfirst (e : Nat) (he : e < n) :
        ∑ t ∈ Finset.range n, ((if e = t then x.1 else 0 : Int) : ℂ) * unityRoot n ^ t = x.1 * unityRoot n ^ e := by
      simp [he]
    simp only [List.map_cons, List.sum_cons, Int.cast_add, add_mul, Finset.sum_add_distrib, ih,
      hfirst _ (Nat.mod_lt _ hn), CosSum.value_cons]
    rw [← mul_add, unityRoot_pow_add_inv hn]
    push_cast
    ring

theorem length_coeffs (s : CosSum) : s.coeffs.length = s.den := by simp [CosSum.coeffs]

/-- A sum that the exact test calls zero is zero. -/
theorem value_eq_zero_of_isZero {s : CosSum} (hn : 0 < s.den) (h : s.isZero = true) : s.value = 0 := by
  have hprim := unityRoot_isPrimitive hn
  have hzero : evalAt (unityRoot s.den) s.coeffs = 0 := by
    refine evalAt_eq_zero_of_foldl _ (fun d hd => ?_) (by rw [length_coeffs]; exact hprim.pow_eq_one)
      (evalAt_eq_zero_of_all _ _ h)
    simp only [List.mem_filter, List.mem_range, Bool.and_eq_true, decide_eq_true_eq] at hd
    obtain ⟨hlt, hpos, -⟩ := hd
    exact ⟨by rw [length_coeffs]; omega, hprim.pow_ne_one_of_pos_of_lt hpos.ne' hlt⟩
  rw [evalAt_coeffs hn] at hzero
  simpa using hzero

/-- Settles O26, by the value of the coefficients' polynomial at a primitive root of unity. -/
theorem zeroTestIsSound : Obligations.ZeroTestIsSound :=
  fun _ hn h => (value_eq_zero_of_isZero hn h).symm

end Sys2Proof.Machine

/-! # Enclosures of π and of cosines

Both series alternate with falling terms, so what is left of one lies between 0 and its next term; each step of the two
recursions adds a term rounded outward (R150 to R152). -/

namespace Sys2Proof.Machine

/-! ## Rounded quotients -/

theorem cast_div_le_div (a b : Nat) : ((a / b : Nat) : ℝ) ≤ (a : ℝ) / b := Nat.cast_div_le

theorem div_le_cast_div_add_one (a b : Nat) : (a : ℝ) / b ≤ ((a / b + 1 : Nat) : ℝ) := by
  rw [← Nat.floor_div_eq_div (K := ℝ)]
  push_cast
  exact (Nat.lt_floor_add_one _).le

theorem div_le_ceilDiv {a b : Nat} (hb : 0 < b) : (a : ℝ) / b ≤ ceilDiv a b := by
  have h : a ≤ ceilDiv a b * b := by
    have hdiv := Nat.div_add_mod' (a + b - 1) b
    have hmod := Nat.mod_lt (a + b - 1) hb
    rw [ceilDiv]
    omega
  rw [div_le_iff₀ (by exact_mod_cast hb)]
  exact_mod_cast h

/-! ## Alternating series -/

/-- What an alternating series leaves from its term `k` on, with the sign of that term taken off. -/
noncomputable def altTail (a : Nat → ℝ) (k : Nat) : ℝ := ∑' j, (-1) ^ j * a (k + j)

section
variable {a : Nat → ℝ}

theorem altTail_zero : altTail a 0 = ∑' j, (-1) ^ j * a j := by simp [altTail]

theorem summable_altTail (hs : Summable fun j => (-1) ^ j * a j) (k : Nat) : Summable fun j => (-1) ^ j * a (k + j) := by
  refine (((summable_nat_add_iff k).mpr hs).mul_left ((-1) ^ k)).congr fun j => ?_
  rw [← mul_assoc, ← pow_add, Nat.add_comm j k, ← Nat.add_assoc, pow_add, ← two_mul, pow_mul]
  simp

theorem altTail_eq_sub (hs : Summable fun j => (-1) ^ j * a j) (k : Nat) : altTail a k = a k - altTail a (k + 1) := by
  rw [altTail, (summable_altTail hs k).tsum_eq_zero_add, altTail, ← sub_neg_eq_add _ (∑' _, _), ← tsum_neg]
  simp [pow_succ, Nat.add_assoc, Nat.add_comm 1]

/-- Where the terms fall, what is left lies between 0 and the next term. -/
theorem altTail_mem (hs : Summable fun j => (-1) ^ j * a j) (k : Nat) (hanti : Antitone fun j => a (k + j)) :
    0 ≤ altTail a k ∧ altTail a k ≤ a k := by
  have hlim := (summable_altTail hs k).hasSum.tendsto_sum_nat
  exact ⟨by simpa [altTail] using hanti.alternating_series_le_tendsto hlim 0,
    by simpa [altTail] using hanti.tendsto_le_alternating_series hlim 0⟩

end

/-! ## Intervals -/

/-- The number lies in the interval. -/
def Encl.Contains (e : Encl) (y : ℝ) : Prop := (e.lo : ℝ) ≤ y ∧ y ≤ e.hi

/-! ## π -/

/-- The terms of arctan(1/q). -/
noncomputable def atanTerm (q : Nat) (k : Nat) : ℝ := 1 / ((q : ℝ) ^ (2 * k + 1) * (2 * k + 1))

theorem hasSum_atanTerm {q : Nat} (hq : 1 < q) : HasSum (fun j => (-1) ^ j * atanTerm q j) (Real.arctan (q : ℝ)⁻¹) := by
  have hnorm : ‖(q : ℝ)⁻¹‖ < 1 := by
    rw [norm_inv, Real.norm_natCast]
    exact inv_lt_one_of_one_lt₀ (by exact_mod_cast hq)
  refine (Real.hasSum_arctan hnorm).congr_fun fun j => ?_
  rw [atanTerm, inv_pow]
  push_cast
  field_simp

theorem atanTerm_antitone {q : Nat} (hq : 1 < q) : Antitone (atanTerm q) := by
  refine antitone_nat_of_succ_le fun k => ?_
  have hq' : (1 : ℝ) ≤ q := by exact_mod_cast hq.le
  refine one_div_le_one_div_of_le (by positivity) (mul_le_mul ?_ ?_ (by positivity) (by positivity))
  · exact pow_le_pow_right₀ hq' (by omega)
  · push_cast
    linarith

/-- One step of an enclosure of an alternating series: the term enclosed, less the enclosure of the rest. -/
theorem Encl.contains_sub {rest : Encl} {lo hi : Int} {x y : ℝ} (hx : (lo : ℝ) ≤ x ∧ x ≤ hi) (hy : rest.Contains y) :
    (⟨lo - rest.hi, hi - rest.lo⟩ : Encl).Contains (x - y) := by
  obtain ⟨hlo, hhi⟩ := hx
  obtain ⟨hrestLo, hrestHi⟩ := hy
  constructor <;> push_cast <;> linarith

/-- A scaled term of arctan(1/q) lies between its quotient rounded down and one more. -/
theorem atanTerm_bounds (p q k : Nat) :
    ((2 ^ p / (q ^ (2 * k + 1) * (2 * k + 1)) : Nat) : ℝ) ≤ 2 ^ p * atanTerm q k ∧
      2 ^ p * atanTerm q k ≤ ((2 ^ p / (q ^ (2 * k + 1) * (2 * k + 1)) + 1 : Nat) : ℝ) := by
  have hterm : 2 ^ p * atanTerm q k = ((2 ^ p : Nat) : ℝ) / ((q ^ (2 * k + 1) * (2 * k + 1) : Nat) : ℝ) := by
    rw [atanTerm]
    push_cast
    ring
  rw [hterm]
  exact ⟨cast_div_le_div _ _, div_le_cast_div_add_one _ _⟩

/-- The enclosure of the rest of the series of arctan(1/q). -/
theorem atanInvTail_contains {q : Nat} (hq : 1 < q) (p n k : Nat) :
    (atanInvTail p q n k (q ^ (2 * k + 1))).Contains (2 ^ p * altTail (atanTerm q) k) := by
  have hs := (hasSum_atanTerm hq).summable
  induction n generalizing k with
  | zero =>
    obtain ⟨hnonneg, hle⟩ := altTail_mem hs k fun i j hij => atanTerm_antitone hq (Nat.add_le_add_left hij k)
    have hscaled : 2 ^ p * altTail (atanTerm q) k ≤ 2 ^ p * atanTerm q k := by gcongr
    have := (atanTerm_bounds p q k).2
    constructor
    · simpa [atanInvTail] using hnonneg
    · exact (hscaled.trans this).trans_eq (Int.cast_natCast _).symm
  | succ n ih =>
    rw [altTail_eq_sub hs k, mul_sub]
    have hrest := ih (k + 1)
    rw [show q ^ (2 * (k + 1) + 1) = q ^ (2 * k + 1) * q ^ 2 by ring] at hrest
    obtain ⟨hlo, hhi⟩ := atanTerm_bounds p q k
    exact Encl.contains_sub ⟨by exact_mod_cast hlo, by exact_mod_cast hhi⟩ hrest

theorem atanInvEncl_contains {q : Nat} (hq : 1 < q) (p : Nat) :
    (atanInvEncl p q).Contains (2 ^ p * Real.arctan (q : ℝ)⁻¹) := by
  have h := atanInvTail_contains hq p (p / 4 + 2) 0
  rwa [altTail_zero, (hasSum_atanTerm hq).tsum_eq, Nat.mul_zero, Nat.zero_add, pow_one] at h

theorem piEncl_contains (p : Nat) : (piEncl p).Contains (2 ^ p * Real.pi) := by
  obtain ⟨lo5, hi5⟩ := atanInvEncl_contains (q := 5) (by norm_num) p
  obtain ⟨lo239, hi239⟩ := atanInvEncl_contains (q := 239) (by norm_num) p
  have hmachin := Real.four_mul_arctan_inv_5_sub_arctan_inv_239
  have hpi : 2 ^ p * Real.pi =
      16 * (2 ^ p * Real.arctan ((5 : Nat) : ℝ)⁻¹) - 4 * (2 ^ p * Real.arctan ((239 : Nat) : ℝ)⁻¹) := by
    push_cast
    linear_combination (-4 * 2 ^ p) * hmachin
  rw [hpi]
  constructor <;> simp only [piEncl] <;> push_cast <;> linarith

/-! ## Cosines -/

/-- The terms of cos θ. -/
noncomputable def cosTerm (θ : ℝ) (k : Nat) : ℝ := θ ^ (2 * k) / (2 * k).factorial

theorem cosTerm_succ (θ : ℝ) (k : Nat) :
    cosTerm θ (k + 1) = cosTerm θ k * θ ^ 2 / ((2 * k + 1) * (2 * k + 2)) := by
  rw [cosTerm, cosTerm, show 2 * (k + 1) = 2 * k + 1 + 1 by ring, Nat.factorial_succ, Nat.factorial_succ]
  push_cast
  field_simp
  ring

theorem hasSum_cosTerm (θ : ℝ) : HasSum (fun j => (-1) ^ j * cosTerm θ j) (Real.cos θ) := by
  simpa [cosTerm, mul_div_assoc] using Real.hasSum_cos θ

theorem cosTerm_nonneg (θ : ℝ) (k : Nat) : 0 ≤ cosTerm θ k :=
  div_nonneg (Even.pow_nonneg (even_two_mul k) θ) (by positivity)

/-- What the cosine series leaves, for an angle of the first quadrant: a part of its next term. -/
theorem altTail_cosTerm_mem {θ : ℝ} (h0 : 0 ≤ θ) (h1 : θ ≤ Real.pi / 2) (k : Nat) :
    0 ≤ altTail (cosTerm θ) k ∧ altTail (cosTerm θ) k ≤ cosTerm θ k := by
  have hs := (hasSum_cosTerm θ).summable
  cases k with
  | zero =>
    rw [altTail_zero, (hasSum_cosTerm θ).tsum_eq]
    exact ⟨Real.cos_nonneg_of_neg_pi_div_two_le_of_le (by linarith [Real.pi_pos]) h1,
      by simpa [cosTerm] using Real.cos_le_one θ⟩
  | succ k =>
    have hsq : θ ^ 2 ≤ 4 := by nlinarith [Real.pi_lt_four]
    refine altTail_mem hs _ (antitone_nat_of_succ_le fun j => ?_)
    rw [← Nat.add_assoc, cosTerm_succ, div_le_iff₀ (by positivity)]
    refine mul_le_mul_of_nonneg_left (hsq.trans ?_) (cosTerm_nonneg _ _)
    push_cast
    nlinarith

/-- The enclosure of the rest of a cosine series, with θ² and the next term enclosed. -/
theorem cosTail_contains {θ : ℝ} (h0 : 0 ≤ θ) (h1 : θ ≤ Real.pi / 2) {p sqLo sqHi : Nat}
    (hsqLo : (sqLo : ℝ) ≤ 2 ^ p * θ ^ 2) (hsqHi : 2 ^ p * θ ^ 2 ≤ sqHi) (n k aLo aHi : Nat)
    (hLo : (aLo : ℝ) ≤ 2 ^ p * cosTerm θ k)
    (hHi : 2 ^ p * cosTerm θ k ≤ aHi) : (cosTail p sqLo sqHi n k aLo aHi).Contains (2 ^ p * altTail (cosTerm θ) k) := by
  induction n generalizing k aLo aHi with
  | zero =>
    obtain ⟨hnonneg, hle⟩ := altTail_cosTerm_mem h0 h1 k
    have hscaled : 2 ^ p * altTail (cosTerm θ) k ≤ 2 ^ p * cosTerm θ k := by gcongr
    have hscaled0 : 0 ≤ 2 ^ p * altTail (cosTerm θ) k := by positivity
    constructor
    · simp only [cosTail, Int.cast_neg, Int.cast_natCast]
      linarith [Nat.cast_nonneg (α := ℝ) aHi]
    · simpa [cosTail] using hscaled.trans hHi
  | succ n ih =>
    have hd : 0 < 2 ^ p * ((2 * k + 1) * (2 * k + 2)) := by positivity
    have hnext : 2 ^ p * cosTerm θ (k + 1) =
        (2 ^ p * cosTerm θ k) * (2 ^ p * θ ^ 2) / ((2 ^ p * ((2 * k + 1) * (2 * k + 2)) : Nat) : ℝ) := by
      rw [cosTerm_succ]
      push_cast
      field_simp
    have hterm := cosTerm_nonneg θ k
    rw [altTail_eq_sub (hasSum_cosTerm θ).summable k, mul_sub]
    refine Encl.contains_sub ⟨by exact_mod_cast hLo, by exact_mod_cast hHi⟩ (ih (k + 1) _ _ ?_ ?_)
    · refine (cast_div_le_div _ _).trans ?_
      rw [hnext, Nat.cast_mul aLo]
      gcongr
    · refine le_trans ?_ (div_le_ceilDiv hd)
      rw [hnext, Nat.cast_mul aHi]
      gcongr

/-- A scaled angle lies between the quotients of the ends for π, rounded outward. -/
theorem angle_bounds (p t den : Nat) (hden : 0 < den) :
    (((piEncl p).lo.toNat * (2 * t) / den : Nat) : ℝ) ≤ 2 ^ p * (2 * Real.pi * t / den) ∧
      2 ^ p * (2 * Real.pi * t / den) ≤ ceilDiv ((piEncl p).hi.toNat * (2 * t)) den := by
  have hpi := Real.pi_pos
  obtain ⟨hpiLo, hpiHi⟩ := piEncl_contains p
  have hlo : ((piEncl p).lo.toNat : ℝ) ≤ 2 ^ p * Real.pi := by
    rw [← Int.cast_natCast, Int.toNat_eq_max, Int.cast_max, Int.cast_zero]
    exact max_le hpiLo (by positivity)
  have hhi : 2 ^ p * Real.pi ≤ ((piEncl p).hi.toNat : ℝ) := by
    rw [← Int.cast_natCast, Int.toNat_eq_max, Int.cast_max]
    exact hpiHi.trans (le_max_left _ _)
  have hscaled : 2 ^ p * (2 * Real.pi * t / den) = (2 ^ p * Real.pi) * ((2 * t : Nat) : ℝ) / den := by
    push_cast
    ring
  rw [hscaled]
  constructor
  · refine (cast_div_le_div _ _).trans ?_
    rw [Nat.cast_mul (piEncl p).lo.toNat]
    gcongr
  · refine le_trans ?_ (div_le_ceilDiv hden)
    rw [Nat.cast_mul (piEncl p).hi.toNat]
    gcongr

/-- The square of an enclosed number, rounded outward. -/
theorem sq_bounds {x : ℝ} {p lo hi : Nat} (hx : 0 ≤ x) (hlo : (lo : ℝ) ≤ 2 ^ p * x) (hhi : 2 ^ p * x ≤ hi) :
    ((lo ^ 2 / 2 ^ p : Nat) : ℝ) ≤ 2 ^ p * x ^ 2 ∧ 2 ^ p * x ^ 2 ≤ ceilDiv (hi ^ 2) (2 ^ p) := by
  have hsq : 2 ^ p * x ^ 2 = (2 ^ p * x) ^ 2 / ((2 ^ p : Nat) : ℝ) := by
    push_cast
    field_simp
  rw [hsq]
  constructor
  · refine (cast_div_le_div _ _).trans ?_
    rw [Nat.cast_pow _ 2]
    gcongr
  · refine le_trans ?_ (div_le_ceilDiv (Nat.two_pow_pos p))
    rw [Nat.cast_pow _ 2]
    gcongr

/-- The cosine of an angle of the first quadrant lies in its enclosure. -/
theorem cosQuadrant_contains (p t den : Nat) (hden : 0 < den) (ht : 4 * t ≤ den) :
    (cosQuadrant p t den).Contains (2 ^ p * Real.cos (2 * Real.pi * t / den)) := by
  have hpi := Real.pi_pos
  have hquadrant : 2 * Real.pi * t / den ≤ Real.pi / 2 := by
    rw [div_le_iff₀ (by exact_mod_cast hden)]
    nlinarith [show (4 : ℝ) * t ≤ den by exact_mod_cast ht]
  obtain ⟨hlo, hhi⟩ := angle_bounds p t den hden
  generalize hθ : 2 * Real.pi * t / den = θ at *
  have h0 : 0 ≤ θ := by
    rw [← hθ]
    positivity
  obtain ⟨hsqLo, hsqHi⟩ := sq_bounds h0 hlo hhi
  rw [← (hasSum_cosTerm θ).tsum_eq, ← altTail_zero]
  exact cosTail_contains h0 hquadrant hsqLo hsqHi _ 0 _ _ (by simp [cosTerm]) (by simp [cosTerm])

/-- An angle is that of the remainder and whole turns. -/
theorem angle_eq_mod_add_turns (t den : Nat) (hden : 0 < den) :
    2 * Real.pi * t / den = 2 * Real.pi * (t % den : Nat) / den + (t / den : Nat) * (2 * Real.pi) := by
  have hdiv : (t : ℝ) = den * (t / den : Nat) + (t % den : Nat) := by exact_mod_cast (Nat.div_add_mod t den).symm
  rw [hdiv]
  field_simp
  ring

theorem cos_angle_mod (t den : Nat) (hden : 0 < den) :
    Real.cos (2 * Real.pi * (t % den : Nat) / den) = Real.cos (2 * Real.pi * t / den) := by
  rw [angle_eq_mod_add_turns t den hden, Real.cos_add_nat_mul_two_pi]

theorem sin_angle_mod (t den : Nat) (hden : 0 < den) :
    Real.sin (2 * Real.pi * (t % den : Nat) / den) = Real.sin (2 * Real.pi * t / den) := by
  rw [angle_eq_mod_add_turns t den hden, Real.sin_add_nat_mul_two_pi]

/-- A cosine depends on the distance of the angle from the nearest full turn. -/
theorem cos_min_mod (t den : Nat) (hden : 0 < den) :
    Real.cos (2 * Real.pi * (min (t % den) (den - t % den) : Nat) / den) = Real.cos (2 * Real.pi * t / den) := by
  rcases min_choice (t % den) (den - t % den) with h | h
  · rw [h, cos_angle_mod t den hden]
  · have hangle : 2 * Real.pi * (den - t % den : Nat) / den = 2 * Real.pi - 2 * Real.pi * (t % den : Nat) / den := by
      rw [Nat.cast_sub (Nat.mod_lt t hden).le]
      field_simp
    rw [h, hangle, Real.cos_two_pi_sub, cos_angle_mod t den hden]

/-- The enclosure of a cosine holds it, at every precision. -/
theorem cosEncl_contains (p t den : Nat) (hden : 0 < den) (heven : den % 2 = 0) :
    (cosEncl p t den).Contains (2 ^ p * Real.cos (2 * Real.pi * t / den)) := by
  rw [← cos_min_mod t den hden]
  unfold cosEncl
  have hmod := Nat.mod_lt t hden
  obtain ⟨r, hr⟩ : ∃ r, min (t % den) (den - t % den) = r := ⟨_, rfl⟩
  simp only [hr]
  split
  · next h => exact cosQuadrant_contains p r den hden h
  · next h =>
    have hhalf : r ≤ den / 2 := by omega
    have hangle : 2 * Real.pi * (r : ℝ) / den = Real.pi - 2 * Real.pi * (den / 2 - r : Nat) / den := by
      have : (den : ℝ) = 2 * (den / 2 : Nat) := by exact_mod_cast (by omega : den = 2 * (den / 2))
      have hne : (den : ℝ) ≠ 0 := by positivity
      rw [Nat.cast_sub hhalf]
      field_simp
      linarith
    obtain ⟨hlo, hhi⟩ := cosQuadrant_contains p (den / 2 - r) den hden (by omega)
    rw [hangle, Real.cos_pi_sub]
    constructor <;> push_cast <;> linarith

end Sys2Proof.Machine

/-! # The search for a correctly rounded sum

Each round of the search encloses the sum; it answers where both ends round alike, where they round to neighbours whose midpoint
the sum is, or where the sum is exactly 0 (R10, R152; log 12). -/

namespace Sys2Proof.Machine

theorem CosSum.encl_contains (p : Nat) (s : CosSum) (hden : 0 < s.den) (heven : s.den % 2 = 0) :
    (s.encl p).Contains (2 ^ p * s.value) := by
  obtain ⟨den, terms⟩ := s
  induction terms with
  | nil => simp [CosSum.encl, CosSum.value_nil, Encl.Contains]
  | cons x terms ih =>
    obtain ⟨hlo, hhi⟩ := cosEncl_contains p x.2 den hden heven
    obtain ⟨hrestLo, hrestHi⟩ := ih hden heven
    rw [CosSum.value_cons, mul_add, mul_left_comm]
    simp only [CosSum.encl, List.foldr_cons] at hrestLo hrestHi ⊢
    split
    · next hx =>
      have hx' : (0 : ℝ) ≤ x.1 := by exact_mod_cast hx
      have hmulLo := mul_le_mul_of_nonneg_left hlo hx'
      have hmulHi := mul_le_mul_of_nonneg_left hhi hx'
      constructor <;> push_cast <;> linarith
    · next hx =>
      have hx' : (x.1 : ℝ) ≤ 0 := by exact_mod_cast (not_le.mp hx).le
      have hmulLo := mul_le_mul_of_nonpos_left hlo hx'
      have hmulHi := mul_le_mul_of_nonpos_left hhi hx'
      constructor <;> push_cast <;> linarith

/-- What `settle` answers is the nearest magnitude of a sum between its two ends. -/
theorem settle_isNearestMag {s : CosSum} {p lo hi m : Nat} (hden : 0 < s.den) (hlo : (lo : ℝ) ≤ 2 ^ p * s.value)
    (hhi : 2 ^ p * s.value ≤ hi) (h : s.settle p lo hi = some m) : IsNearestMag s.value m := by
  have hpow : (0 : ℝ) < 2 ^ p := by positivity
  have hnearLo := roundMag_isNearestMag lo (2 ^ p) (Nat.two_pow_pos p)
  have hnearHi := roundMag_isNearestMag hi (2 ^ p) (Nat.two_pow_pos p)
  have hxlo : (lo : ℝ) / (2 ^ p : Nat) ≤ s.value := by
    rw [div_le_iff₀ (by positivity)]
    push_cast
    linarith
  have hxhi : s.value ≤ (hi : ℝ) / (2 ^ p : Nat) := by
    rw [le_div_iff₀ (by positivity)]
    push_cast
    linarith
  unfold CosSum.settle at h
  dsimp only at h
  split at h
  · next heq =>
    cases h
    exact hnearLo.of_between (by rwa [heq]) hxlo hxhi
  · split at h
    · next htie =>
      obtain ⟨hnext, hzero⟩ := htie
      have hvalue := value_eq_zero_of_isZero (by exact hden) hzero
      rw [CosSum.value_addInt, CosSum.value_scale, hnext] at hvalue
      push_cast at hvalue
      cases h
      rw [hnext]
      exact isNearestMag_of_tie (hnext ▸ hnearHi.1) (by linarith)
    · cases h

/-- A positive sum that `settle` answers is rounded to the magnitude answered. -/
theorem settle_enclosed {s : CosSum} {p m : Nat} {e : Encl} (hden : 0 < s.den) (he : e.Contains (2 ^ p * s.value))
    (hpos : 0 < e.lo) (h : s.settle p e.lo.toNat e.hi.toNat = some m) : 0 < s.value ∧ IsNearestMag |s.value| m := by
  obtain ⟨hlo, hhi⟩ := he
  have hlo0 : (0 : ℝ) < e.lo := by exact_mod_cast hpos
  have hhi0 : (0 : ℝ) < e.hi := by linarith
  have hvalue : 0 < s.value := (mul_pos_iff_of_pos_left (by positivity)).mp (hlo0.trans_le hlo)
  have cast_toNat {n : Int} (hn : (0 : ℝ) < n) : (n.toNat : ℝ) = n := by
    exact_mod_cast Int.toNat_of_nonneg (by exact_mod_cast hn.le : 0 ≤ n)
  rw [abs_of_pos hvalue]
  exact ⟨hvalue, settle_isNearestMag hden (by rwa [cast_toNat hlo0]) (by rwa [cast_toNat hhi0]) h⟩

/-- Every word the search answers is the sum correctly rounded, for each sign of the sum. -/
theorem search_isRn32 {s : CosSum} (hden : 0 < s.den) (heven : s.den % 2 = 0) {fuel p : Nat} {w : Word}
    (h : CosSum.search fuel p s = some w) : IsRn32 s.value w := by
  induction fuel generalizing p with
  | zero => cases h
  | succ fuel ih =>
    have henc := s.encl_contains p hden heven
    simp only [CosSum.search] at h
    split_ifs at h with hpos hneg hzero
    · split at h
      · next m hm =>
        cases h
        obtain ⟨hvalue, hnear⟩ := settle_enclosed hden henc hpos hm
        exact isRn32_mkWord hnear (by simp [hvalue.le])
      · exact ih h
    · split at h
      · next m hm =>
        cases h
        have hopp : (⟨-(s.encl p).hi, -(s.encl p).lo⟩ : Encl).Contains (2 ^ p * (s.scale (-1)).value) := by
          obtain ⟨hlo, hhi⟩ := henc
          rw [CosSum.value_scale]
          constructor <;> push_cast <;> linarith
        obtain ⟨hvalue, hnear⟩ := settle_enclosed (by exact hden) hopp (by simpa using hneg) hm
        rw [CosSum.value_scale] at hvalue hnear
        push_cast at hvalue hnear
        exact isRn32_mkWord (by simpa using hnear) (by simpa using hvalue)
      · exact ih h
    · cases h
      rw [value_eq_zero_of_isZero hden hzero]
      exact isRn32_zero
    · exact ih h

/-- Settles O27: every answer of the search is the sum correctly rounded. -/
theorem sumsAreCorrectlyRounded : Obligations.SumsAreCorrectlyRounded := by
  intro s fuel p w r hden heven hr h
  rw [(s.hasValue_iff r).mp hr]
  exact search_isRn32 hden heven h

end Sys2Proof.Machine

/-! # The transforms

The sums of `forwardSum` and `inverseSum` are the real sums of R150 and R151, and each output is such a sum rounded (R152) or
within its bound (R153). -/

namespace Sys2Proof.Machine

/-! ## Rounded and bounded sums -/

/-- Terms with coefficient 0 add nothing. -/
theorem CosSum.value_filter (den : Nat) (terms : List (Int × Nat)) :
    (⟨den, terms.filter fun x => x.1 != 0⟩ : CosSum).value = (⟨den, terms⟩ : CosSum).value := by
  induction terms with
  | nil => rfl
  | cons x terms ih =>
    rw [List.filter_cons, value_cons]
    split
    · rw [value_cons, ih]
    · next hx =>
      have hx0 : x.1 = 0 := by simpa using hx
      rw [ih, hx0, Int.cast_zero, zero_mul, zero_add]

theorem CosSum.round_isRn32 {s : CosSum} (hden : 0 < s.den) (heven : s.den % 2 = 0) (h : s.settled) :
    IsRn32 s.value s.round := by
  rw [← value_filter s.den s.terms]
  unfold CosSum.round
  unfold CosSum.settled at h
  dsimp only at h
  cases hts : s.terms.filter fun x => x.1 != 0 with
  | nil => exact isRn32_zero
  | cons t ts =>
    rw [hts] at h
    obtain ⟨w, hw⟩ := Option.isSome_iff_exists.mp (h.resolve_left (List.cons_ne_nil t ts))
    simp only [hw, Option.getD_some]
    exact search_isRn32 (s := ⟨s.den, t :: ts⟩) hden heven hw

/-- A real below 2^127 does not round to infinity. -/
theorem IsNearestMag.lt_inf {x : ℝ} {e : Nat} (h : IsNearestMag x e) (hx : x < 2 ^ 276) : e < 0x7F800000 := by
  obtain ⟨hle, hmid⟩ := (isNearestMag_iff x e).mp h
  refine lt_of_le_of_ne hle ?_
  rintro rfl
  have hzero := (hmid 0 (Nat.zero_le _)).2 (by norm_num)
  have hinf : (magOf 0x7F800000 : ℝ) = 2 * 2 ^ 276 := by
    rw [magOf_inf, ← pow_add, Nat.cast_pow, ← pow_succ']
    rfl
  rw [magOf_zero, Nat.cast_zero, zero_add, hinf] at hzero
  generalize (2 : ℝ) ^ 276 = bound at hx hzero
  rcases hzero with h | ⟨h, -⟩ <;> linarith

theorem isRn32_iff (r : ℝ) (w : Word) :
    IsRn32 r w ↔ ∃ e, IsNearestMag |r| e ∧ w = mkWord (decide (r < 0)) e := by
  refine exists_congr fun e => and_congr_right fun _ => ?_
  rcases lt_or_ge r 0 with h | h <;> simp [h, not_lt_of_ge, not_le_of_gt]

/-- The error of a rounding is the error of its magnitude. -/
theorem abs_scaled_mkWord_sub (r : ℝ) {e : Nat} (he : e < 2 ^ 31) :
    |(scaled (mkWord (decide (r < 0)) e) : ℝ) - r| = |(magOf e : ℝ) - (|r|)| := by
  rw [scaled_mkWord _ he]
  rcases lt_or_ge r 0 with h | h
  · rw [decide_eq_true h, abs_of_neg h, ← abs_neg]
    congr 1
    push_cast
    simp
    ring
  · rw [decide_eq_false h.not_gt, abs_of_nonneg h]
    simp

/-- The nearest word meets every bound that some word meets (R153). -/
theorem IsRn32.isWithin {r : ℝ} {w : Word} (h : IsRn32 r w) (b : ℝ) : IsWithin b r w := by
  rintro hr ⟨v, hvfin, hv⟩
  obtain ⟨e, hnear, rfl⟩ := (isRn32_iff r w).mp h
  have he := hnear.lt_inf hr
  refine ⟨by rw [isFinite_iff, magBits_mkWord _ (by omega)]; exact he, ?_⟩
  have hbest : |(magOf e : ℝ) - (|r|)| ≤ |(magOf (magBits v) : ℝ) - (|r|)| := by
    by_cases heq : magBits v = e
    · rw [heq]
    · rcases hnear.2 _ ((isFinite_iff v).mp hvfin).le heq with h | ⟨h, -⟩
      exacts [h.le, h.le]
  calc |(scaled (mkWord (decide (r < 0)) e) : ℝ) - r| = |(magOf e : ℝ) - (|r|)| := abs_scaled_mkWord_sub r (by omega)
    _ ≤ |(|(scaled v : ℝ)|) - (|r|)| := by rw [abs_scaled]; exact hbest
    _ ≤ |(scaled v : ℝ) - r| := abs_abs_sub_abs_le _ _
    _ ≤ b := hv

/-- A BOUNDED output is within XFORM_EPS times the norm of its sum (R153). -/
theorem CosSum.bounded_isWithin {s : CosSum} (hden : 0 < s.den) (heven : s.den % 2 = 0) (h : s.settled) (eps : Nat)
    (draw : Option { w : Word // s.Legal eps w }) :
    IsWithin ((Config.xformEps eps).val * s.norm) s.value (s.bounded eps draw) := by
  rcases bounded_cases s eps draw with ⟨r, hr, hlegal⟩ | hround
  · rw [← (s.hasValue_iff r).mp hr]
    exact fun hlt _ => hlegal.resolve_left hlt.not_ge
  · rw [hround]
    exact (round_isRn32 hden heven h).isWithin _

/-! ## Angles in units of half a step -/

section
variable {L : Nat}

/-- An even number of half steps is a cosine of whole steps. -/
theorem cos_half_steps (hL : 0 < L) (m : Nat) :
    Real.cos (2 * Real.pi * (2 * (m % L) : Nat) / (2 * L : Nat)) = Real.cos (2 * Real.pi * m / L) := by
  rw [← cos_angle_mod m L hL]
  congr 1
  push_cast
  field_simp

/-- A quarter turn more makes the cosine the sine, negated. -/
theorem cos_half_steps_add_quarter (hL : 0 < L) (heven : L % 2 = 0) (m : Nat) :
    Real.cos (2 * Real.pi * (2 * (m % L) + L / 2 : Nat) / (2 * L : Nat)) = -Real.sin (2 * Real.pi * m / L) := by
  have hhalf : (L : ℝ) = 2 * (L / 2 : Nat) := by exact_mod_cast (by omega : L = 2 * (L / 2))
  have hangle : 2 * Real.pi * (2 * (m % L) + L / 2 : Nat) / (2 * L : Nat) =
      2 * Real.pi * (m % L : Nat) / L + Real.pi / 2 := by
    push_cast
    field_simp
    rw [hhalf]
    ring
  rw [hangle, Real.cos_add_pi_div_two, sin_angle_mod m L hL]

end

/-! ## The forward transform (R150) -/

section
variable {xs : List Word}

theorem forwardSum_re_value (hL : 0 < xs.length) (k : Nat) :
    (forwardSum xs false k).value =
      (xs.zipIdx.map fun x => (scaled x.1 : ℝ) * Real.cos (2 * Real.pi * k * x.2 / xs.length)).sum := by
  simp only [CosSum.value, forwardSum, List.map_map]
  refine congrArg List.sum (List.map_congr_left fun x _ => ?_)
  have h := cos_half_steps hL (k * x.2)
  rw [Nat.cast_mul k, ← mul_assoc] at h
  simp only [Function.comp_apply, Bool.false_eq_true, if_false, Nat.add_zero, h]

theorem forwardSum_im_value (hL : 0 < xs.length) (heven : xs.length % 2 = 0) (k : Nat) :
    (forwardSum xs true k).value =
      -(xs.zipIdx.map fun x => (scaled x.1 : ℝ) * Real.sin (2 * Real.pi * k * x.2 / xs.length)).sum := by
  simp only [CosSum.value, forwardSum, List.map_map, List.sum_neg]
  refine congrArg List.sum (List.map_congr_left fun x _ => ?_)
  have h := cos_half_steps_add_quarter hL heven (k * x.2)
  rw [Nat.cast_mul k, ← mul_assoc] at h
  simp only [Function.comp_apply, if_true, h, mul_neg]

/-- The norm of a forward sum is Σ |x_n|. -/
theorem forwardSum_norm (im : Bool) (k : Nat) :
    ((forwardSum xs im k).norm : ℝ) = (xs.map fun x => |(scaled x : ℝ)|).sum := by
  have hmap : (forwardSum xs im k).terms.map (fun x => x.1.natAbs) = xs.map fun x => (scaled x).natAbs := by
    conv_rhs => rw [← List.zipIdx_map_fst 0 xs, List.map_map]
    simp only [forwardSum, List.map_map]
    rfl
  rw [CosSum.norm, hmap, Nat.cast_list_sum, List.map_map]
  refine congrArg List.sum (List.map_congr_left fun x _ => ?_)
  rw [Function.comp_apply, natAbs_scaled, abs_scaled]

/-- The imaginary parts at 0 and L/2 are 0 (R153(c)). -/
theorem forwardSum_im_value_eq_zero (hL : 0 < xs.length) (heven : xs.length % 2 = 0) {k : Nat}
    (hk : k = 0 ∨ k = xs.length / 2) : (forwardSum xs true k).value = 0 := by
  rw [forwardSum_im_value hL heven, neg_eq_zero]
  refine List.sum_eq_zero fun y hy => ?_
  obtain ⟨x, -, rfl⟩ := List.mem_map.mp hy
  have hL' : (xs.length : ℝ) ≠ 0 := by positivity
  have hangle : ∃ m : Nat, 2 * Real.pi * k * x.2 / xs.length = m * Real.pi := by
    rcases hk with rfl | rfl
    · exact ⟨0, by simp⟩
    · have hhalf : (xs.length : ℝ) = 2 * (xs.length / 2 : Nat) := by
        exact_mod_cast (by omega : xs.length = 2 * (xs.length / 2))
      refine ⟨x.2, ?_⟩
      rw [div_eq_iff hL', hhalf]
      ring
  obtain ⟨m, hm⟩ := hangle
  rw [hm, Real.sin_nat_mul_pi, mul_zero]

end

/-- +0 is within any bound of 0. -/
theorem isWithin_zero {b : ℝ} (hb : 0 ≤ b) : IsWithin b 0 posZero :=
  fun _ _ => ⟨by decide, by simpa [show scaled posZero = 0 by decide] using hb⟩

/-- Settles O28: the two sums are the transform's, rounded or within their bound. -/
theorem forwardSumsAreTheTransform : Obligations.ForwardSumsAreTheTransform := by
  intro cfg xs k hL heven re im size
  have hden (b : Bool) : 0 < (forwardSum xs b k).den ∧ (forwardSum xs b k).den % 2 = 0 := by
    simp only [forwardSum]
    omega
  have hre : (forwardSum xs false k).value = re := forwardSum_re_value hL k
  have him : (forwardSum xs true k).value = im := forwardSum_im_value hL heven k
  refine ⟨hre.symm, him.symm, fun hcfg => ?_, fun eps hcfg => ?_⟩
  · simp only [rfft, hcfg]
    rw [← hre, ← him]
    exact ⟨CosSum.round_isRn32 (hden false).1 (hden false).2, CosSum.round_isRn32 (hden true).1 (hden true).2⟩
  · simp only [rfft, hcfg]
    rw [← hre, ← him]
    refine ⟨fun h => ?_, fun h => ?_, fun hk => if_pos hk⟩
    · have hbound := CosSum.bounded_isWithin (hden false).1 (hden false).2 h eps
      rw [forwardSum_norm] at hbound
      exact hbound _
    · split
      · next hk =>
        rw [forwardSum_im_value_eq_zero hL heven hk]
        refine isWithin_zero (mul_nonneg (Config.xformEps eps).pos.le (List.sum_nonneg fun y hy => ?_))
        obtain ⟨x, -, rfl⟩ := List.mem_map.mp hy
        exact abs_nonneg _
      · have hbound := CosSum.bounded_isWithin (hden true).1 (hden true).2 h eps
        rw [forwardSum_norm] at hbound
        exact hbound _

/-! ## The inverse transform (R151) -/

/-- A sum over the terms of the bins kept is one over all bins, where the others add nothing. -/
theorem sum_flatMap_filter {α β : Type} (l : List α) (p : α → Bool) (f : α → List β) (g : β → ℝ)
    (h : ∀ y, p y = false → ((f y).map g).sum = 0) :
    (((l.filter p).flatMap f).map g).sum = (l.map fun y => ((f y).map g).sum).sum := by
  induction l with
  | nil => rfl
  | cons y l ih =>
    rw [List.filter_cons, List.map_cons, List.sum_cons]
    split
    · rw [List.flatMap_cons, List.map_append, List.sum_append, ih]
    · next hp => rw [ih, h y (Bool.eq_false_iff.mpr hp), zero_add]

/-- A sum over the bins with their numbers is one over the numbers. -/
theorem map_zipIdx_eq_map_range {α β : Type} (l : List α) (d : α) (g : α × Nat → β) :
    l.zipIdx.map g = (List.range l.length).map fun k => g (l.getD k d, k) := by
  refine List.ext_getElem (by simp) fun k h1 h2 => ?_
  have hk : k < l.length := by simpa using h1
  simp [hk]

/-- The terms of one bin of an inverse sum. -/
def binTerms (M n : Nat) (y : (Word × Word) × Nat) : List (Int × Nat) :=
  if y.2 = 0 ∨ y.2 = M / 2 then [(scaled y.1.1, 2 * (y.2 * n % M))]
  else [(2 * scaled y.1.1, 2 * (y.2 * n % M)), (2 * scaled y.1.2, 2 * (y.2 * n % M) + M / 2)]

theorem inverseSum_eq (ys : List ((Word × Word) × Nat)) (M n : Nat) :
    inverseSum ys M n = ⟨2 * M, ys.flatMap (binTerms M n)⟩ := rfl

/-- Any sum of the terms of an inverse sum, bin by bin: bins 0 and M/2, and the others. -/
theorem sum_inverseSum_terms (Y : List (Word × Word)) (M n : Nat) (hM : 4 ≤ M) (hY : Y.length = M / 2 + 1)
    (g : Int × Nat → ℝ) (hg : ∀ t, g (0, t) = 0) :
    ((inverseSum (nonzeroBins Y) M n).terms.map g).sum =
      g (scaled (Y.getD 0 (posZero, posZero)).1, 2 * (0 * n % M)) +
      g (scaled (Y.getD (M / 2) (posZero, posZero)).1, 2 * (M / 2 * n % M)) +
      ((List.range (M / 2 - 1)).map fun j =>
        g (2 * scaled (Y.getD (j + 1) (posZero, posZero)).1, 2 * ((j + 1) * n % M)) +
          g (2 * scaled (Y.getD (j + 1) (posZero, posZero)).2, 2 * ((j + 1) * n % M) + M / 2)).sum := by
  obtain ⟨h, hh⟩ : ∃ h, M / 2 = h + 1 := ⟨M / 2 - 1, by omega⟩
  have hzero (y : (Word × Word) × Nat) (hy : (scaled y.1.1 != 0 || scaled y.1.2 != 0) = false) :
      ((binTerms M n y).map g).sum = 0 := by
    obtain ⟨h1, h2⟩ : scaled y.1.1 = 0 ∧ scaled y.1.2 = 0 := by simpa using hy
    unfold binTerms
    split <;> simp [h1, h2, hg]
  have hends (y : (Word × Word) × Nat) (hy : y.2 = 0 ∨ y.2 = M / 2) :
      ((binTerms M n y).map g).sum = g (scaled y.1.1, 2 * (y.2 * n % M)) := by
    rw [binTerms, if_pos hy, List.map_singleton, List.sum_singleton]
  have hinner (y : (Word × Word) × Nat) (hy : ¬ (y.2 = 0 ∨ y.2 = M / 2)) :
      ((binTerms M n y).map g).sum =
        g (2 * scaled y.1.1, 2 * (y.2 * n % M)) + g (2 * scaled y.1.2, 2 * (y.2 * n % M) + M / 2) := by
    rw [binTerms, if_neg hy]
    simp
  rw [inverseSum_eq, nonzeroBins, sum_flatMap_filter _ _ _ _ hzero, map_zipIdx_eq_map_range _ (posZero, posZero), hY, hh,
    List.sum_range_succ, List.sum_range_succ', hends _ (.inl rfl), hends _ (.inr hh.symm), Nat.add_sub_cancel,
    List.map_congr_left fun j hj => hinner (Y.getD (j + 1) (posZero, posZero), j + 1) ?_, hh]
  · ring
  · have := List.mem_range.mp hj
    dsimp only
    omega

/-- The value of an inverse sum is y_n (R151). -/
theorem inverseSum_value (Y : List (Word × Word)) (M n : Nat) (heven : M % 2 = 0) (hM : 4 ≤ M)
    (hY : Y.length = M / 2 + 1) :
    (inverseSum (nonzeroBins Y) M n).value =
      scaled (Y.getD 0 (posZero, posZero)).1 + scaled (Y.getD (M / 2) (posZero, posZero)).1 * (-1) ^ n +
        2 * ((List.range (M / 2 - 1)).map fun j =>
          scaled (Y.getD (j + 1) (posZero, posZero)).1 * Real.cos (2 * Real.pi * (j + 1 : Nat) * n / M) -
            scaled (Y.getD (j + 1) (posZero, posZero)).2 * Real.sin (2 * Real.pi * (j + 1 : Nat) * n / M)).sum := by
  have hM0 : 0 < M := by omega
  have hnyquist : 2 * Real.pi * (M / 2 * n : Nat) / M = n * Real.pi := by
    have hhalf : (M : ℝ) = 2 * (M / 2 : Nat) := by exact_mod_cast (by omega : M = 2 * (M / 2))
    have hne : (M : ℝ) ≠ 0 := by positivity
    rw [div_eq_iff hne, hhalf]
    push_cast
    ring
  rw [CosSum.value, sum_inverseSum_terms Y M n hM hY _ (by simp)]
  simp only [inverseSum, cos_half_steps hM0, cos_half_steps_add_quarter hM0 heven, hnyquist, Real.cos_nat_mul_pi,
    Nat.zero_mul, Nat.cast_zero, mul_zero, zero_div, Real.cos_zero, mul_one, ← List.sum_map_mul_left]
  congr 2
  refine List.map_congr_left fun j _ => ?_
  push_cast
  simp only [← mul_assoc]
  ring

/-- The norm of an inverse sum. -/
theorem inverseSum_norm (Y : List (Word × Word)) (M n : Nat) (hM : 4 ≤ M) (hY : Y.length = M / 2 + 1) :
    ((inverseSum (nonzeroBins Y) M n).norm : ℝ) =
      |(scaled (Y.getD 0 (posZero, posZero)).1 : ℝ)| + |(scaled (Y.getD (M / 2) (posZero, posZero)).1 : ℝ)| +
        2 * ((List.range (M / 2 - 1)).map fun j =>
          |(scaled (Y.getD (j + 1) (posZero, posZero)).1 : ℝ)| + |(scaled (Y.getD (j + 1) (posZero, posZero)).2 : ℝ)|).sum := by
  rw [CosSum.norm, Nat.cast_list_sum, List.map_map]
  rw [sum_inverseSum_terms Y M n hM hY _ (by simp)]
  simp only [Function.comp_apply, Nat.cast_natAbs, Int.cast_abs, Int.cast_mul, abs_mul, Int.cast_ofNat, abs_two,
    ← List.sum_map_mul_left, mul_add]

section
variable {cfg : Config} {Y : List (Word × Word)} {M n : Nat}

/-- One word of a correctly rounded inverse transform (R152). -/
theorem irfft_getD_rounded (hn : n < M) (hcfg : cfg.xform = .correctlyRounded) :
    (irfft cfg Y M).getD n 0#32 = (inverseSum (nonzeroBins Y) M n).round := by
  rw [List.getD_eq_getElem _ _ (by rwa [irfft_length])]
  simp only [irfft, hcfg, List.getElem_map, List.getElem_range]

/-- One word of a BOUNDED inverse transform (R153). -/
theorem irfft_getD_bounded {eps : Nat} (hn : n < M) (hcfg : cfg.xform = .bounded eps) :
    (irfft cfg Y M).getD n 0#32 = (inverseSum (nonzeroBins Y) M n).bounded eps
      (Config.irfftDraw eps Y M n ((inverseSum (nonzeroBins Y) M n).Legal eps)) := by
  rw [List.getD_eq_getElem _ _ (by rwa [irfft_length])]
  simp only [irfft, hcfg]
  rw [List.getElem_map, List.getElem_range]

end

/-- Settles O29: the sum is the inverse transform's, rounded or within its bound. -/
theorem inverseSumIsTheTransform : Obligations.InverseSumIsTheTransform := by
  intro cfg Y M n heven hM hY re im y size sum
  have hden : 0 < sum.den ∧ sum.den % 2 = 0 := by
    simp only [sum, inverseSum]
    omega
  have hvalue : sum.value = y := inverseSum_value Y M n heven hM hY
  refine ⟨hvalue.symm, fun hn hsettled hcfg => ?_, fun eps hn hsettled hcfg => ?_⟩
  · rw [irfft_getD_rounded hn hcfg, ← hvalue]
    exact CosSum.round_isRn32 hden.1 hden.2 hsettled
  · have hbound := CosSum.bounded_isWithin hden.1 hden.2 hsettled eps
    rw [inverseSum_norm Y M n hM hY, hvalue] at hbound
    rw [irfft_getD_bounded hn hcfg]
    exact hbound _

end Sys2Proof.Machine

/-! # The bus

What an access does, by the location it names (R60 to R71): the answer of a read, the register or RAM word a write changes,
and the STATUS and IRQ_EN words bit by bit. -/

namespace Sys2Proof.Machine

/-! ## Where the registers stand -/

/-- The offset of a register (R22). -/
def regOffset : Reg → Nat
  | .id => 0x00
  | .version => 0x04
  | .caps0 => 0x08
  | .caps1 => 0x0C
  | .caps2 => 0x10
  | .ctrl => 0x14
  | .irqEn => 0x18
  | .status => 0x1C
  | .cmd => 0x20
  | .srcLen => 0x24
  | .tableSize => 0x28
  | .refRate => 0x2C
  | .amplitude => 0x30
  | .cutoff => 0x34
  | .freq => 0x38
  | .index => 0x3C
  | .specLen => 0x40
  | .result0 => 0x44
  | .result1 => 0x48
  | .resultIndex => 0x4C
  | .harmCount => 0x50

theorem regAt_eq_some_iff {a : Nat} {r : Reg} : regAt a = some r ↔ a = regOffset r := by
  constructor
  · intro h
    unfold regAt at h
    split at h <;> cases h <;> rfl
  · rintro rfl
    cases r <;> rfl

theorem regOffset_le (r : Reg) : regOffset r ≤ 0x50 := by cases r <;> decide

theorem regOffset_mod_four (r : Reg) : regOffset r % 4 = 0 := by cases r <;> rfl

/-- Every register offset names its register, and nothing else does (R22, R60). -/
theorem locate_eq_reg_iff {c : Config} {a : Nat} {r : Reg} : locate c a = .reg r ↔ a = regOffset r := by
  have hle := regOffset_le r
  unfold locate
  split_ifs with h
  case pos =>
    rw [← regAt_eq_some_iff]
    cases regAt a <;> simp
  all_goals exact iff_of_false nofun (by omega)

/-- The offsets of the register page above the last register are reserved (R45). -/
theorem locate_reserved {c : Config} {a : Nat} (hlo : 0x54 ≤ a) (hhi : a < 0x1000) : locate c a = .reserved := by
  have hnone : regAt a = none := by
    rw [Option.eq_none_iff_forall_ne_some]
    intro r hr
    have := regOffset_le r
    rw [regAt_eq_some_iff] at hr
    omega
  simp [locate, hhi, hnone]

theorem locate_f2i {c : Config} {i : Nat} (hi : i < 1024) : locate c (0x1000 + 4 * i) = .f2i i := by
  rw [locate, if_neg (by omega), if_pos (by omega)]
  congr 1
  omega

theorem locate_sf {c : Config} {t : Nat} (ht : t < 25) : locate c (0x2000 + 4 * t) = .sf t := by
  rw [locate, if_neg (by omega), if_neg (by omega), if_pos (by omega)]
  congr 1
  omega

/-- The offset names a word of SAMPLE, SPEC or TAB (R46 to R48). -/
abbrev ramLocation (c : Config) (a : Nat) : Prop :=
  locate c a = .sample ∨ locate c a = .spec ∨ locate c a = .tab

/-! ## The answer of a read -/

theorem response_read (s : State) (a : BitVec 21) (narrow : Bool) :
    (s.hostEvent (.read a narrow)).response = some (s.readResponse a.toNat narrow) := rfl

section
variable {s : State} {a : Nat}

theorem readResponse_reg {r : Reg} (ha : a = regOffset r) : s.readResponse a false = .okayRead (s.hostReadReg r) := by
  have hmod : a % 4 = 0 := ha ▸ regOffset_mod_four r
  simp [State.readResponse, aligned, hmod, locate_eq_reg_iff.mpr ha]

theorem readResponse_reserved (hmod : a % 4 = 0) (hloc : locate s.cfg a = .reserved) :
    s.readResponse a false = .okayRead 0#32 := by
  simp [State.readResponse, aligned, hmod, hloc]

theorem readResponse_f2i {i : Nat} (hmod : a % 4 = 0) (hloc : locate s.cfg a = .f2i i) :
    s.readResponse a false = .okayRead (f2i i) := by
  simp [State.readResponse, aligned, hmod, hloc]

theorem readResponse_sf {t : Nat} (hmod : a % 4 = 0) (hloc : locate s.cfg a = .sf t) :
    s.readResponse a false = .okayRead (sf t) := by
  simp [State.readResponse, aligned, hmod, hloc]

theorem readResponse_ram (hmod : a % 4 = 0) (hloc : ramLocation s.cfg a) :
    s.readResponse a false = .okayRead (s.hostReadRam a) := by
  rcases hloc with hloc | hloc | hloc <;> simp [State.readResponse, aligned, hmod, hloc]

end

/-! ## Writes -/

theorem whenIdle_of_idle {s : State} (t : State) (h : s.isBusy = false) : s.whenIdle t = t := by
  simp [State.whenIdle, h]

theorem whenIdle_tablesValid (s t : State) :
    (s.whenIdle t).tablesValid = if s.isBusy then s.tablesValid else t.tablesValid := by
  unfold State.whenIdle
  split <;> rfl

/-- A write that is not refused does what its location says (R62, R66). -/
theorem hostEvent_write_okay {s : State} {a : BitVec 21} {narrow : Bool} {lanes : BitVec 4}
    (h : writeRefused s.cfg a.toNat narrow lanes = false) (v : Word) :
    s.hostEvent (.write a narrow lanes v) = { s.hostWrite a.toNat v with response := some .okayWrite } := by
  simp [State.hostEvent, h]

/-- A refused write changes nothing (R62). -/
theorem hostEvent_write_refused {s : State} {a : BitVec 21} {narrow : Bool} {lanes : BitVec 4}
    (h : writeRefused s.cfg a.toNat narrow lanes = true) (v : Word) :
    s.hostEvent (.write a narrow lanes v) = { s with response := some .errorWrite } := by
  simp [State.hostEvent, h]

/-- A full-width write at a register's offset writes that register. -/
theorem hostEvent_write_reg {a : BitVec 21} {r : Reg} (ha : a.toNat = regOffset r) (s : State) (v : Word) :
    s.hostEvent (.write a false 0xF#4 v) = { s.writeReg r v with response := some .okayWrite } := by
  have hmod : a.toNat % 4 = 0 := ha ▸ regOffset_mod_four r
  have hloc : locate s.cfg a.toNat = .reg r := locate_eq_reg_iff.mpr ha
  rw [hostEvent_write_okay (by simp [writeRefused, aligned, hmod, hloc])]
  simp [State.hostWrite, hloc]

/-- While idle, a full-width write of a RAM word stores it, and one to TAB clears TABLES_VALID (R53, R66). -/
theorem hostEvent_write_ram {s : State} {a : BitVec 21} (hidle : s.isBusy = false) (hmod : a.toNat % 4 = 0)
    (hloc : ramLocation s.cfg a.toNat) (v : Word) :
    s.hostEvent (.write a false 0xF#4 v) =
      { s.writeRam a.toNat [v] with
        tablesValid := s.tablesValid && decide (locate s.cfg a.toNat ≠ .tab), response := some .okayWrite } := by
  have hokay : writeRefused s.cfg a.toNat false 0xF#4 = false := by
    rcases hloc with hloc | hloc | hloc <;> simp [writeRefused, aligned, hmod, hloc]
  rw [hostEvent_write_okay hokay]
  rcases hloc with hloc | hloc | hloc <;> simp [State.hostWrite, whenIdle_of_idle, hidle, hloc, State.writeRam]

/-! ## The STATUS and IRQ_EN words, bit by bit -/

/-- The fields of R30 by their bits; those of ERRCODE are 8 to 15, and the reserved bits are 0. -/
theorem getLsbD_statusWordWith (s : State) (valid : Bool) (k : Nat) :
    (s.statusWordWith valid).getLsbD k =
      if k = 0 then s.isBusy
      else if k = 1 then s.done
      else if k = 2 then s.err
      else if k = 3 then s.cmdOverrun
      else if k = 4 then s.busyWrite
      else if k = 5 then valid
      else decide (8 ≤ k) && s.errCode.code.getLsbD (k - 8) := by
  simp only [State.statusWordWith, BitVec.getLsbD_append, BitVec.getLsbD_ofBool, BitVec.getLsbD_zero]
  rcases Nat.lt_or_ge k 8 with h | h
  · interval_cases k <;> simp
  · obtain ⟨j, rfl⟩ := Nat.exists_eq_add_of_le' h
    rcases Nat.lt_or_ge j 8 with hj | hj <;> simp [hj]

theorem getLsbD_irqEnWord_zero (s : State) : s.irqEnWord.getLsbD 0 = s.doneIe := by
  simp only [State.irqEnWord, BitVec.getLsbD_append, BitVec.getLsbD_ofBool]
  simp

theorem getLsbD_irqEnWord_one (s : State) : s.irqEnWord.getLsbD 1 = s.errIe := by
  simp only [State.irqEnWord, BitVec.getLsbD_append, BitVec.getLsbD_ofBool]
  simp

/-- The STATUS word as a number (R30): reserved bits add nothing. -/
theorem toNat_statusWordWith (s : State) (valid : Bool) :
    (s.statusWordWith valid).toNat =
      s.isBusy.toNat + 2 * s.done.toNat + 4 * s.err.toNat + 8 * s.cmdOverrun.toNat + 16 * s.busyWrite.toNat +
        32 * valid.toNat + 256 * s.errCode.code.toNat := by
  simp only [State.statusWordWith, toNat_append_eq, BitVec.toNat_ofBool, BitVec.toNat_zero]
  omega

theorem toNat_irqEnWord (s : State) : s.irqEnWord.toNat = s.doneIe.toNat + 2 * s.errIe.toNat := by
  simp only [State.irqEnWord, toNat_append_eq, BitVec.toNat_ofBool, BitVec.toNat_zero]
  omega

end Sys2Proof.Machine

/-! # The registers, the flags and the RAMs

What sets and clears TABLES_VALID (R53), and what the host reads and writes (R22 to R53, R62 to R71). -/

namespace Sys2Proof.Machine

/-! ## TABLES_VALID -/

/-- What a successful command leaves in TABLES_VALID (R53): the builds set it, what else writes TAB clears it. -/
def tablesValidAfter : Instr → Bool → Bool
  | .build, _ | .buildAudio, _ => true
  | .synth _, _ | .padRow _, _ | .padAll, _ => false
  | .nop, old | .fftFwd, old | .indexF, old | .indexX, old | .rangeI, old | .rangeF, old | .cutoff _, old => old

/-- A command's writes, before its completion, set TABLES_VALID by R53 and leave ERRCODE alone (R68). -/
theorem commandOf_flags {i : Instr} {s u : State} (hu : commandOf i s = .ok u) :
    u.tablesValid = tablesValidAfter i s.tablesValid ∧ u.errCode = s.errCode := by
  cases i with
  | nop | indexF | indexX | rangeI | rangeF => cases hu; exact ⟨rfl, rfl⟩
  | fftFwd => obtain ⟨-, rfl⟩ := fftFwdCommand_ok hu; simp [tablesValidAfter]
  | synth b => obtain ⟨-, -, row, K, -, rfl⟩ := synthCommand_ok hu; simp [tablesValidAfter]
  | cutoff b => obtain ⟨-, -, rfl⟩ := cutoffCommand_ok hu; exact ⟨rfl, rfl⟩
  | padRow b => obtain ⟨-, -, rfl⟩ := padRowCommand_ok hu; simp [tablesValidAfter]
  | padAll =>
    obtain ⟨-, rfl⟩ := padAllCommand_ok hu
    refine ⟨rfl, ?_⟩
    rw [foldl_padRow_eq]
  | build => obtain ⟨-, rows, -, rfl⟩ := buildCommand_ok hu; simp [tablesValidAfter]
  | buildAudio => obtain ⟨-, -, H, rows, -, -, rfl⟩ := buildAudioCommand_ok hu; simp [tablesValidAfter]

/-! ### No command raises code 0x00 (R241) -/

/-- What the checks raise, if anything, is not the code of success. -/
def raisesCode {α : Type} (x : Except ErrCode α) : Prop := ∀ c, x = .error c → c ≠ .ok

theorem raisesCode_ok {α : Type} (a : α) : raisesCode (.ok a) := nofun

theorem raisesCode_bind {α β : Type} {x : Except ErrCode α} {f : α → Except ErrCode β} (hx : raisesCode x)
    (hf : ∀ a, raisesCode (f a)) : raisesCode (x >>= f) := by
  cases x with
  | error e => exact fun c h => hx c (congrArg Except.error (Except.error.inj h))
  | ok a => exact hf a

theorem raisesCode_mapM {α β : Type} {f : α → Except ErrCode β} (hf : ∀ a, raisesCode (f a)) (l : List α) :
    raisesCode (l.mapM f) := by
  induction l with
  | nil => exact raisesCode_ok []
  | cons x l ih =>
    rw [List.mapM_cons]
    exact raisesCode_bind (hf x) fun y => raisesCode_bind ih fun ys => raisesCode_ok (y :: ys)

theorem checkBand_raises (b : BitVec 5) : raisesCode (checkBand b) := fun c h => by
  rw [(checkBand_error b c h).1]
  decide

theorem checkLength_raises (len max : Nat) : raisesCode (checkLength len max) := fun c h => by
  rcases checkLength_error len max c h with ⟨rfl, -⟩ | ⟨rfl, -⟩ <;> decide

theorem raisesCode_of_badOperand {α : Type} {x : Except ErrCode α} (h : ∀ c, x = .error c → c = .badOperand) :
    raisesCode x := fun c hc => by
  rw [h c hc]
  decide

theorem checkR_raises (s : State) : raisesCode (checkR s) := raisesCode_of_badOperand (checkR_error s)

theorem checkA_raises (s : State) : raisesCode (checkA s) := raisesCode_of_badOperand (checkA_error s)

theorem checkC_raises (s : State) : raisesCode (checkC s) := raisesCode_of_badOperand (checkC_error s)

theorem checkSamples_raises (s : State) (L : Nat) : raisesCode (checkSamples s L) :=
  raisesCode_of_badOperand (checkSamples_error s L)

theorem synthRow_raises (cfg : Config) (harm : Nat → Word × Word) (A c : Word) (M : Nat) :
    raisesCode (synthRow cfg harm A c M) := raisesCode_of_badOperand (synthRow_error cfg harm A c M)

theorem buildRows_raises (cfg : Config) (harm : Nat → Word × Word) (A R : Word) (M : Nat) :
    raisesCode (buildRows cfg harm A R M) :=
  raisesCode_mapM (fun _ => raisesCode_bind (synthRow_raises _ _ _ _ _) fun _ => raisesCode_ok _) _

/-- Every check of every command raises one of the codes 0x01 to 0x06 (R241). -/
theorem commandOf_raises (i : Instr) (s : State) : raisesCode (commandOf i s) := by
  have hL : raisesCode (checkL s) := checkLength_raises _ _
  have hM : raisesCode (checkM s) := checkLength_raises _ _
  cases i with
  | nop | indexF | indexX | rangeI | rangeF => exact raisesCode_ok _
  | fftFwd => exact raisesCode_bind hL fun L => raisesCode_bind (checkSamples_raises s L) fun _ => raisesCode_ok _
  | synth b =>
    exact raisesCode_bind (checkBand_raises b) fun m => raisesCode_bind hM fun M =>
      raisesCode_bind (checkA_raises s) fun A => raisesCode_bind (checkC_raises s) fun c =>
        raisesCode_bind (synthRow_raises s.cfg s.harm A c M) fun _ => raisesCode_ok _
  | cutoff b =>
    exact raisesCode_bind (checkBand_raises b) fun m => raisesCode_bind hM fun M =>
      raisesCode_bind (checkR_raises s) fun _ => raisesCode_ok _
  | padRow b => exact raisesCode_bind (checkBand_raises b) fun m => raisesCode_bind hM fun _ => raisesCode_ok _
  | padAll => exact raisesCode_bind hM fun _ => raisesCode_ok _
  | build =>
    exact raisesCode_bind hM fun M => raisesCode_bind (checkR_raises s) fun R =>
      raisesCode_bind (checkA_raises s) fun A =>
        raisesCode_bind (buildRows_raises s.cfg s.harm A R M) fun _ => raisesCode_ok _
  | buildAudio =>
    exact raisesCode_bind hL fun L => raisesCode_bind hM fun M => raisesCode_bind (checkR_raises s) fun R =>
      raisesCode_bind (checkA_raises s) fun A => raisesCode_bind (checkSamples_raises s L) fun xs =>
        raisesCode_bind (buildRows_raises s.cfg (harmOf (forwardProfile s.cfg xs)) A R M) fun _ => raisesCode_ok _

/-- A command completes with its writes and ERRCODE as it was, or with an error and TABLES_VALID as it was (R243, R244). -/
theorem exec_flags {i : Instr} {s t : State} (h : exec i s = .next t) :
    (t.errCode = s.errCode ∧ t.tablesValid = tablesValidAfter i s.tablesValid) ∨
      (t.errCode ≠ .ok ∧ t.tablesValid = s.tablesValid) := by
  rw [exec_eq_finish] at h
  rcases finish_cases _ _ _ h with ⟨u, hu, rfl⟩ | ⟨code, hcode, rfl⟩
  · obtain ⟨hvalid, herr⟩ := commandOf_flags hu
    exact .inl ⟨by simp [herr], hvalid⟩
  · have hne := commandOf_raises i s code hcode
    exact .inr ⟨by simp [hne], rfl⟩

/-! ### Writes to TABLES_VALID by the host -/

theorem softReset_tablesValid (s : State) : s.softReset.tablesValid = false := rfl

/-- Of the register writes, one to CTRL with bit 0 clears TABLES_VALID, and while idle one to TABLE_SIZE (R34, R53, R272). -/
theorem writeReg_tablesValid (s : State) (r : Reg) (v : Word) :
    (s.writeReg r v).tablesValid =
      if (r = .ctrl ∧ v.getLsbD 0 = true) ∨ (s.isBusy = false ∧ r = .tableSize) then false else s.tablesValid := by
  cases r with
  | id | version | caps0 | caps1 | caps2 | result0 | result1 | resultIndex | harmCount | irqEn | status =>
    simp [State.writeReg]
  | ctrl => simp [State.writeReg, apply_ite State.tablesValid, softReset_tablesValid]
  | cmd => cases hb : s.isBusy <;> simp [State.writeReg, hb]
  | srcLen | refRate | amplitude | cutoff | freq | index | specLen | tableSize =>
    cases hb : s.isBusy <;> simp [State.writeReg, whenIdle_tablesValid, hb]

/-- An OKAY write clears TABLES_VALID at those two registers and, while idle, in TAB (R53). -/
theorem hostWrite_tablesValid (s : State) (a : Nat) (v : Word) :
    (s.hostWrite a v).tablesValid =
      if (a = regOffset .ctrl ∧ v.getLsbD 0 = true) ∨
          (s.isBusy = false ∧ (a = regOffset .tableSize ∨ locate s.cfg a = .tab))
      then false else s.tablesValid := by
  simp only [← locate_eq_reg_iff (c := s.cfg)]
  cases hloc : locate s.cfg a with
  | reg r => simp [State.hostWrite, hloc, writeReg_tablesValid]
  | reserved | f2i | sf | unmapped => simp [State.hostWrite, hloc]
  | sample | spec | tab => cases hb : s.isBusy <;> simp [State.hostWrite, hloc, whenIdle_tablesValid, hb]

/-- Settles O12: a command by its row of R53, and a host write by its location. -/
theorem tablesValidSetAndCleared : Obligations.TablesValidSetAndCleared := by
  refine ⟨fun i s t hs h => ?_, fun s t code hcode h => ?_, fun _ => rfl, fun _ _ _ => rfl, fun s a n l v => ?_⟩
  · rcases exec_flags h with ⟨herr, hvalid⟩ | ⟨herr, hvalid⟩
    · rw [hvalid]
      refine ⟨fun hne => absurd (herr.trans hs) hne, fun _ hi => ?_, fun _ hi => ?_, fun _ hi => ?_⟩
      · rcases hi with rfl | rfl <;> rfl
      · rcases hi with ⟨b, rfl | rfl⟩ | rfl <;> rfl
      · rcases hi with rfl | rfl | rfl | rfl | rfl | rfl | ⟨b, rfl⟩ <;> rfl
    · exact ⟨fun _ => hvalid, fun hok => absurd hok herr, fun hok => absurd hok herr, fun hok => absurd hok herr⟩
  · have hne := decode_error_ne_ok _ _ hcode
    rcases engineStep_cases s with ⟨i, hd, -⟩ | ⟨c, hd, hstep⟩
    · simp [hcode] at hd
    · cases hcode.symm.trans hd
      cases hstep.symm.trans h
      exact ⟨by simp [hne], hne, rfl⟩
  · intro t okay softReset clears
    have hclears : softReset ∨ clears ↔ (a.toNat = regOffset .ctrl ∧ v.getLsbD 0 = true) ∨
        (s.isBusy = false ∧ (a.toNat = regOffset .tableSize ∨ locate s.cfg a.toNat = .tab)) := by
      simp only [softReset, clears, ← BitVec.toNat_inj]
      rfl
    cases hr : writeRefused s.cfg a.toNat n l with
    | true => simp [t, okay, hr, hostEvent_write_refused hr]
    | false =>
      have ht : t.tablesValid = (s.hostWrite a.toNat v).tablesValid :=
        (congrArg State.tablesValid (hostEvent_write_okay hr v)).trans rfl
      rw [ht, hostWrite_tablesValid, hclears]
      exact ⟨fun ⟨_, hc⟩ => if_pos hc, fun hn => if_neg fun hc => hn ⟨hr, hc⟩⟩

/-! ## Reads and writes of the host -/

/-- A register outside the write set of the command in flight answers its value (R67, R71). -/
theorem response_read_reg {a : BitVec 21} {r : Reg} (ha : a.toNat = regOffset r) (s : State)
    (hfree : s.isBusy = false ∨ ∀ i, decode s.cmd = .ok i → writesReg i r = false) :
    (s.hostEvent (.read a false)).response = some (.okayRead (s.readReg r)) := by
  rw [response_read, readResponse_reg ha, hostReadReg_current s r hfree]

/-- Of STATUS, TABLES_VALID alone can be unspecified to a host (R71, log 8). -/
theorem hostReadReg_status (s : State) : ∃ valid, s.hostReadReg .status = s.statusWordWith valid := by
  unfold State.hostReadReg
  split
  · exact ⟨_, rfl⟩
  · exact ⟨s.tablesValid, rfl⟩

/-- Settles O51: a read answers by its location, and only the counter of free values moves. -/
theorem readsChangeNothing : Obligations.ReadsChangeNothing := by
  intro s answer
  refine ⟨fun a narrow => ⟨_, rfl⟩, fun x hx hfree => ?_, ?_, fun a hmod hlo hhi => ?_, fun i hi => ?_, fun t ht => ?_,
    fun a hmod hloc hfree => ?_⟩
  · have ha : x.1.toNat = regOffset x.2 := by fin_cases hx <;> rfl
    exact response_read_reg ha s hfree
  · obtain ⟨valid, hword⟩ := hostReadReg_status s
    refine ⟨s.statusWordWith valid, ?_, fun k _ h5 => ?_⟩
    · rw [← hword]
      exact congrArg some (readResponse_reg rfl)
    · change _ = (s.statusWordWith s.tablesValid).getLsbD k
      simp only [getLsbD_statusWordWith, if_neg h5]
  · exact congrArg some (readResponse_reserved hmod (locate_reserved hlo hhi))
  · have ha : (BitVec.ofNat 21 (0x1000 + 4 * i)).toNat = 0x1000 + 4 * i := Nat.mod_eq_of_lt (by omega)
    exact congrArg some (readResponse_f2i (by omega) (by rw [ha, locate_f2i hi]))
  · have ha : (BitVec.ofNat 21 (0x2000 + 4 * t)).toNat = 0x2000 + 4 * t := Nat.mod_eq_of_lt (by omega)
    exact congrArg some (readResponse_sf (by omega) (by rw [ha, locate_sf ht]))
  · rw [← hostReadRam_current s a.toNat hfree]
    exact congrArg some (readResponse_ram hmod hloc)

/-- Aligned words overlap only where they are the same word (R64). -/
theorem word_writeRam_one (s : State) {a x : Nat} (ha : a % 4 = 0) (hx : x % 4 = 0) (v : Word) :
    (s.writeRam a [v]).word x = if x = a then v else s.word x := by
  split
  · next h =>
    subst h
    simpa using s.word_writeRam_inside x [v] 0 (by simp)
  · exact s.word_writeRam_outside a [v] x (by simp only [List.length_singleton]; omega)

/-- Settles O52: the write is one word of memory, and the block stays idle, so that each read answers the current word. -/
theorem ramWritesAreReadBack : Obligations.RamWritesAreReadBack := by
  intro s a a' v hidle ha ha' hloc hloc' t
  have ht : t = _ := hostEvent_write_ram hidle ha hloc v
  have hword : t.word a'.toNat = (s.writeRam a.toNat [v]).word a'.toNat := by rw [ht]; rfl
  have hcfg : t.cfg = s.cfg := by rw [ht]; rfl
  have hstill : t.isBusy = false := by rw [ht]; exact hidle
  refine ⟨?_, ?_⟩
  · rw [response_read, readResponse_ram ha' (hcfg ▸ hloc'), hostReadRam_current t _ (.inl hstill), hword,
      word_writeRam_one s ha ha']
    simp only [BitVec.toNat_inj]
  · rw [ht]
    rfl

/-- Settles O55: acceptance while idle, CMD_OVERRUN while busy. -/
theorem cmdWriteIsAcceptedOrDropped : Obligations.CmdWriteIsAcceptedOrDropped := by
  refine ⟨rfl, ?_⟩
  intro s c t
  have ht : t = { s.writeReg .cmd c with response := some .okayWrite } := hostEvent_write_reg rfl s c
  refine ⟨fun hidle => ?_, fun hbusy => ?_⟩
  · have haccept : s.writeReg .cmd c = s.accept c := by simp [State.writeReg, hidle]
    rw [ht, haccept]
    exact ⟨rfl, rfl, rfl⟩
  · have hdrop : s.writeReg .cmd c = { s with cmdOverrun := true } := by simp [State.writeReg, hbusy]
    rw [ht, hdrop]
    exact ⟨rfl, rfl⟩

/-- Bits 1 to 4 of the written word clear their fields, and bit 2 clears ERRCODE too (R31). -/
theorem getLsbD_statusWord_writeStatus (s : State) (v : Word) (k : Nat) :
    (s.writeStatus v).statusWord.getLsbD k =
      (s.statusWord.getLsbD k &&
        !((decide (1 ≤ k ∧ k ≤ 4) && v.getLsbD k) || (decide (8 ≤ k ∧ k ≤ 15) && v.getLsbD 2))) := by
  have hcode (j : Nat) : (s.writeStatus v).errCode.code.getLsbD j = (s.errCode.code.getLsbD j && !v.getLsbD 2) := by
    cases hv : v.getLsbD 2 <;> simp only [State.writeStatus_errCode, hv, ErrCode.code] <;> simp
  have hbusy : (s.writeStatus v).isBusy = s.isBusy := rfl
  rw [State.statusWord, State.statusWord, getLsbD_statusWordWith, getLsbD_statusWordWith, hcode, hbusy]
  rcases Nat.lt_or_ge k 8 with hlo | hhi
  · interval_cases k <;> simp
  · obtain ⟨j, rfl⟩ := Nat.exists_eq_add_of_le' hhi
    rcases Nat.lt_or_ge j 8 with hj | hj
    · simp [show j ≤ 7 by omega]
    · simp [BitVec.getLsbD_of_ge _ j hj]

/-- Settles O56: every field of STATUS by its bit; bit 2 clears ERRCODE too. -/
theorem statusWriteClearsItsFields : Obligations.StatusWriteClearsItsFields := by
  intro s v t
  have ht : t = { s.writeStatus v with response := some .okayWrite } := hostEvent_write_reg (r := .status) rfl s v
  rw [ht]
  exact ⟨rfl, fun k _ => getLsbD_statusWord_writeStatus s v k⟩

/-- Settles O57: the words are the fields they are made of, and IRQ is R51 over their bits. -/
theorem irqIsItsFunction : Obligations.IrqIsItsFunction := by
  refine fun s => ⟨?_, toNat_irqEnWord s, ?_⟩
  · refine (toNat_statusWordWith s s.tablesValid).trans ?_
    cases s.errCode <;> rfl
  · change s.irq = (((s.statusWordWith s.tablesValid).getLsbD 1 && s.irqEnWord.getLsbD 0) ||
      ((s.statusWordWith s.tablesValid).getLsbD 2 && s.irqEnWord.getLsbD 1))
    rw [getLsbD_irqEnWord_zero, getLsbD_irqEnWord_one, getLsbD_statusWordWith, getLsbD_statusWordWith]
    rfl

/-- The WARL value of SPEC_LEN, where the capacity fits a register (R6, R40). -/
theorem toNat_specLenValue {c : Config} (hc : c.wf) (v : Word) : (specLenValue c v).toNat = min v.toNat c.specCap := by
  obtain ⟨-, -, hmax, -⟩ := hc
  have hcap : c.specCap < 2 ^ 32 := by
    simp only [Config.specCap]
    omega
  unfold specLenValue
  split
  · rw [BitVec.toNat_ofNat, Nat.mod_eq_of_lt hcap]
    omega
  · omega

/-- Settles O58: a register's write, at its offset. -/
theorem registerWritesTakeTheirValue : Obligations.RegisterWritesTakeTheirValue := by
  intro s v after
  have hafter (r : Reg) {a : BitVec 21} (ha : a.toNat = regOffset r) :
      after a = { s.writeReg r v with response := some .okayWrite } := hostEvent_write_reg ha s v
  refine ⟨hafter .irqEn rfl, fun hv => ?_, fun hidle => ?_⟩
  · have hkeep : s.writeReg .ctrl v = s := by simp only [State.writeReg, hv, Bool.false_eq_true, if_false]
    rw [hafter .ctrl rfl, hkeep]
  · have hstore (r : Reg) {a : BitVec 21} {t : State} (ha : a.toNat = regOffset r) (hr : s.writeReg r v = s.whenIdle t) :
        after a = { t with response := some .okayWrite } := by
      rw [hafter r ha, hr, whenIdle_of_idle t hidle]
    refine ⟨hstore .srcLen rfl rfl, hstore .tableSize rfl rfl, hstore .refRate rfl rfl, hstore .amplitude rfl rfl,
      hstore .cutoff rfl rfl, hstore .freq rfl rfl, hstore .index rfl rfl, fun hc => ?_⟩
    rw [hstore .specLen rfl rfl]
    exact ⟨rfl, toNat_specLenValue hc v⟩

/-- Settles O60: the reset values of R22, register by register. -/
theorem resetRegisterValues : Obligations.ResetRegisterValues := by
  refine fun s r => ⟨?_, ?_, rfl, rfl, rfl⟩
  · cases r with
    | irqEn => exact BitVec.eq_of_toNat_eq (toNat_irqEnWord s.hardReset)
    | status => exact BitVec.eq_of_toNat_eq (toNat_statusWordWith s.hardReset false)
    | _ => rfl
  · rintro (rfl | rfl | rfl | rfl | rfl | rfl) <;> rfl

end Sys2Proof.Machine

/-! # Write sets and frames

What each command writes, and that it leaves everything else unchanged (R68). -/

namespace Sys2Proof.Machine

/-! ## What the commands write (R68) -/

/-- The byte at offset `a` stands in none of the ranges. -/
abbrev outsideRanges (rs : List (Nat × Nat)) (a : Nat) : Prop := ∀ r ∈ rs, a < r.1 ∨ r.1 + 4 * r.2 ≤ a

/-- The guard words of row `m` at table size `M`, before and after it (R14). -/
def guardRanges (M m : Nat) : List (Nat × Nat) := [(rowOffset M m 0, extra), (rowOffset M m (M + extra), extra)]

section
variable {s : State}

theorem writeRanges_fftFwd (hL : legalLength s.srcLen.toNat s.cfg.srcLenMax) :
    writeRanges s .fftFwd = [(specOffset 0, 2 * (s.srcLen.toNat / 2 + 1))] := by
  obtain ⟨-, -, hmax⟩ := hL
  simp only [writeRanges, Config.specCap]
  rw [Nat.min_eq_left (by omega)]

theorem writeRanges_synth {b : BitVec 5} (hb : b.toNat < numBands) (hM : legalLength s.tableSize.toNat s.cfg.tableSizeMax) :
    writeRanges s (.synth b) = [(rowOffset s.tableSize.toNat b.toNat extra, s.tableSize.toNat)] := by
  have hrow := rowBase_add_le s.cfg _ _ hb hM.2.2
  simp only [writeRanges, rowOffset]
  rw [Nat.min_eq_left (by omega)]

/-- The guard words of a row lie in TAB, so that the write set does not cut them. -/
theorem guardRanges_eq {c : Config} {M m : Nat} (hm : m < numBands) (hM : M ≤ c.tableSizeMax) :
    [(tabOffset (rowBase M m), min extra (c.tabWords - rowBase M m)),
      (tabOffset (rowBase M m + (M + extra)), min extra (c.tabWords - (rowBase M m + (M + extra))))] =
      guardRanges M m := by
  have hrow := rowBase_add_le c M m hm hM
  rw [Nat.min_eq_left (by omega), Nat.min_eq_left (by omega)]
  rfl

theorem writeRanges_padRow {b : BitVec 5} (hb : b.toNat < numBands)
    (hM : legalLength s.tableSize.toNat s.cfg.tableSizeMax) :
    writeRanges s (.padRow b) = guardRanges s.tableSize.toNat b.toNat :=
  guardRanges_eq hb hM.2.2

theorem writeRanges_padAll (hM : legalLength s.tableSize.toNat s.cfg.tableSizeMax) :
    writeRanges s .padAll = (List.range numBands).flatMap (guardRanges s.tableSize.toNat) :=
  List.flatMap_congr fun _ hm => guardRanges_eq (List.mem_range.mp hm) hM.2.2

theorem writeRanges_build (hM : legalLength s.tableSize.toNat s.cfg.tableSizeMax) :
    writeRanges s .build = [(tabOffset 0, numBands * (s.tableSize.toNat + 2 * extra))] := by
  have hcap : numBands * (s.tableSize.toNat + 2 * extra) ≤ s.cfg.tabWords :=
    Nat.mul_le_mul_left _ (Nat.add_le_add_right hM.2.2 _)
  simp only [writeRanges]
  rw [Nat.min_eq_left (by omega)]

theorem writeRanges_buildAudio : writeRanges s .buildAudio = writeRanges s .fftFwd ++ writeRanges s .build := rfl

/-! ## Bytes outside the write set -/

variable {a : Nat}

theorem byte_complete (code : ErrCode) : (s.complete code).byte a = s.byte a := rfl

theorem byte_with_tablesValid (valid : Bool) : ({ s with tablesValid := valid } : State).byte a = s.byte a := rfl

theorem byte_storeProfile {H : List (Word × Word)} (h : outsideRanges [(specOffset 0, 2 * H.length)] a) :
    (s.storeProfile H).byte a = s.byte a :=
  s.byte_writeRam_outside _ _ a (by rw [specWords_length]; exact h _ (List.mem_singleton_self _))

theorem byte_storeRow {M m K : Nat} {row : List Word} (h : outsideRanges [(rowOffset M m extra, row.length)] a) :
    (s.storeRow M m row K).byte a = s.byte a :=
  s.byte_writeRam_outside _ _ a (h _ (List.mem_singleton_self _))

theorem byte_padRow {t : State} {M m : Nat} (h : outsideRanges (guardRanges M m) a) :
    (t.padRow s M m).byte a = t.byte a := by
  have hbefore := h (rowOffset M m 0, extra) (by simp [guardRanges])
  have hafter := h (rowOffset M m (M + extra), extra) (by simp [guardRanges])
  rw [State.padRow, State.byte_writeRam_outside _ _ _ _ (by rwa [words_length]),
    State.byte_writeRam_outside _ _ _ _ (by rwa [words_length])]

theorem byte_foldl_padRow {t : State} {M : Nat} {ms : List Nat} (h : outsideRanges (ms.flatMap (guardRanges M)) a) :
    (ms.foldl (fun (t : State) m => t.padRow s M m) t).byte a = t.byte a := by
  refine List.foldlRecOn (motive := fun u : State => u.byte a = t.byte a) ms _ rfl fun u hu m hm => ?_
  rw [byte_padRow fun r hr => h r (List.mem_flatMap.mpr ⟨m, hm, hr⟩), hu]

theorem byte_storeTables {M : Nat} {R : Word} {rows : List (List Word)} (hM : extra ≤ M)
    (hrows : ∀ row ∈ rows, row.length = M) (h : outsideRanges [(tabOffset 0, rows.length * (M + 2 * extra))] a) :
    (s.storeTables M R rows).byte a = s.byte a :=
  s.byte_writeRam_outside _ _ a
    (by rw [length_flatMap_paddedRow hM hrows]; exact h _ (List.mem_singleton_self _))

end

/-- A command that succeeds leaves every byte outside its write set (R68). -/
theorem commandOf_byte {i : Instr} {s u : State} {a : Nat} (hu : commandOf i s = .ok u)
    (h : outsideRanges (writeRanges s i) a) : u.byte a = s.byte a := by
  cases i with
  | nop | indexF | indexX | rangeI | rangeF => cases hu; rfl
  | cutoff b => obtain ⟨-, -, rfl⟩ := cutoffCommand_ok hu; rfl
  | fftFwd =>
    obtain ⟨hL, rfl⟩ := fftFwdCommand_ok hu
    rw [writeRanges_fftFwd hL] at h
    exact byte_storeProfile (by simpa using h)
  | synth b =>
    obtain ⟨hb, hM, row, K, hrow, rfl⟩ := synthCommand_ok hu
    obtain ⟨-, rfl, -⟩ := synthRow_ok _ _ _ _ _ _ _ hrow
    rw [writeRanges_synth hb hM] at h
    exact byte_storeRow (by rwa [irfft_length])
  | padRow b =>
    obtain ⟨hb, hM, rfl⟩ := padRowCommand_ok hu
    rw [writeRanges_padRow hb hM] at h
    rw [byte_with_tablesValid, byte_padRow h]
  | padAll =>
    obtain ⟨hM, rfl⟩ := padAllCommand_ok hu
    rw [writeRanges_padAll hM] at h
    rw [byte_with_tablesValid, byte_foldl_padRow h]
  | build =>
    obtain ⟨hM, rows, hrows, rfl⟩ := buildCommand_ok hu
    obtain ⟨hlen, hrow⟩ := buildRows_ok hrows
    rw [writeRanges_build hM] at h
    exact byte_storeTables hM.2.1 hrow (by rwa [hlen])
  | buildAudio =>
    obtain ⟨hL, hM, H, rows, rfl, hrows, rfl⟩ := buildAudioCommand_ok hu
    obtain ⟨hlen, hrow⟩ := buildRows_ok hrows
    rw [writeRanges_buildAudio, writeRanges_fftFwd hL, writeRanges_build hM] at h
    obtain ⟨hspec, htab⟩ := List.forall_mem_append.mp h
    rw [byte_storeTables hM.2.1 hrow (by rwa [hlen]), byte_storeProfile (by simpa using hspec)]

/-! ## Registers outside the write set -/

section
variable {s : State} {r : Reg}

theorem readReg_complete (hr : r ≠ .status) (code : ErrCode) : (s.complete code).readReg r = s.readReg r := by
  cases r with
  | status => exact absurd rfl hr
  | _ => rfl

theorem readReg_storeProfile (H : List (Word × Word)) (hr : r ≠ .specLen) :
    (s.storeProfile H).readReg r = s.readReg r := by
  cases r with
  | specLen => exact absurd rfl hr
  | _ => rfl

theorem readReg_setIndex (x : Word) (h0 : r ≠ .result0) (hi : r ≠ .resultIndex) :
    (s.setIndex x).readReg r = s.readReg r := by
  cases r with
  | result0 => exact absurd rfl h0
  | resultIndex => exact absurd rfl hi
  | _ => rfl

/-- The three result registers are all that a range, or a cutoff, is stored in. -/
theorem readReg_results (x y z : Word) (h0 : r ≠ .result0) (h1 : r ≠ .result1) (hi : r ≠ .resultIndex) :
    ({ s with result0 := x, result1 := y, resultIndex := z } : State).readReg r = s.readReg r := by
  cases r with
  | result0 => exact absurd rfl h0
  | result1 => exact absurd rfl h1
  | resultIndex => exact absurd rfl hi
  | _ => rfl

/-- Tables, rows and guard words are stored with HARM_COUNT and TABLES_VALID at most. -/
theorem readReg_stores (m : Memory) (K : Word) (valid : Bool) (hh : r ≠ .harmCount) (hr : r ≠ .status) :
    ({ s with mem := m, harmCount := K, tablesValid := valid } : State).readReg r = s.readReg r := by
  cases r with
  | harmCount => exact absurd rfl hh
  | status => exact absurd rfl hr
  | _ => rfl

theorem readReg_padded (m : Memory) (valid : Bool) (hr : r ≠ .status) :
    ({ s with mem := m, tablesValid := valid } : State).readReg r = s.readReg r := by
  cases r with
  | status => exact absurd rfl hr
  | _ => rfl

end

/-- Of PAD_ALL's writes only RAM words and TABLES_VALID change the state (R203). -/
theorem padAllCommand_changes {s u : State} (hu : padAllCommand s = .ok u) :
    u = { s with mem := u.mem, tablesValid := false } := by
  obtain ⟨-, rfl⟩ := padAllCommand_ok hu
  rw [foldl_padRow_eq]

/-- A command that succeeds leaves every register its row of R68 does not name; STATUS is read by its fields. -/
theorem commandOf_readReg {i : Instr} {s u : State} {r : Reg} (hu : commandOf i s = .ok u) (hr : r ≠ .status)
    (hw : writesReg i r = false) : u.readReg r = s.readReg r := by
  cases i <;> simp only [writesReg, Bool.or_eq_false_iff, beq_eq_false_iff_ne] at hw
  case nop => cases hu; rfl
  case fftFwd =>
    obtain ⟨-, rfl⟩ := fftFwdCommand_ok hu
    exact readReg_storeProfile _ hw
  case synth =>
    obtain ⟨hh, -⟩ := hw
    obtain ⟨-, -, row, K, -, rfl⟩ := synthCommand_ok hu
    exact readReg_stores _ _ _ hh hr
  case indexF | indexX =>
    obtain ⟨h0, hi⟩ := hw
    cases hu
    exact readReg_setIndex _ h0 hi
  case rangeI | rangeF =>
    obtain ⟨⟨h0, h1⟩, hi⟩ := hw
    cases hu
    exact readReg_results _ _ _ h0 h1 hi
  case cutoff =>
    obtain ⟨⟨h0, h1⟩, hi⟩ := hw
    obtain ⟨-, -, rfl⟩ := cutoffCommand_ok hu
    exact readReg_results _ _ _ h0 h1 hi
  case padRow =>
    obtain ⟨-, -, rfl⟩ := padRowCommand_ok hu
    simp only [State.padRow, State.writeRam, readReg_padded _ _ hr]
  case padAll =>
    rw [padAllCommand_changes hu]
    exact readReg_padded _ _ hr
  case build =>
    obtain ⟨hh, -⟩ := hw
    obtain ⟨-, rows, -, rfl⟩ := buildCommand_ok hu
    exact readReg_stores _ _ _ hh hr
  case buildAudio =>
    obtain ⟨⟨hspec, hh⟩, -⟩ := hw
    obtain ⟨-, -, H, rows, -, -, rfl⟩ := buildAudioCommand_ok hu
    exact (readReg_stores (s := s.storeProfile H) _ _ _ hh hr).trans (readReg_storeProfile H hspec)

/-- The fields that a command may change before its completion: the RAMs, TABLES_VALID and the registers it answers in. -/
theorem commandOf_changes {i : Instr} {s u : State} (hu : commandOf i s = .ok u) :
    u = { s with
      mem := u.mem, tablesValid := u.tablesValid, specLen := u.specLen, result0 := u.result0, result1 := u.result1,
      resultIndex := u.resultIndex, harmCount := u.harmCount } := by
  cases i with
  | nop | indexF | indexX | rangeI | rangeF => cases hu; rfl
  | fftFwd => obtain ⟨-, rfl⟩ := fftFwdCommand_ok hu; rfl
  | synth b => obtain ⟨-, -, row, K, -, rfl⟩ := synthCommand_ok hu; rfl
  | cutoff b => obtain ⟨-, -, rfl⟩ := cutoffCommand_ok hu; rfl
  | padRow b =>
    obtain ⟨-, -, rfl⟩ := padRowCommand_ok hu
    simp only [State.padRow, State.writeRam]
  | padAll =>
    rw [padAllCommand_changes hu]
  | build => obtain ⟨-, rows, -, rfl⟩ := buildCommand_ok hu; rfl
  | buildAudio =>
    obtain ⟨-, -, H, rows, -, -, rfl⟩ := buildAudioCommand_ok hu
    simp only [State.storeTables, State.storeProfile, State.writeRam]

/-- TABLES_VALID changes only where the row of R68 names STATUS (R53). -/
theorem tablesValidAfter_of_not_written {i : Instr} (h : writesReg i .status = false) (old : Bool) :
    tablesValidAfter i old = old := by
  cases i with
  | synth | padRow | padAll | build | buildAudio => exact nomatch h
  | nop | fftFwd | indexF | indexX | rangeI | rangeF | cutoff => rfl

/-- Settles O9: a command that fails changes the completion fields only, and one that succeeds its write set besides. -/
theorem commandsWriteOnlyTheirWriteSet : Obligations.CommandsWriteOnlyTheirWriteSet := by
  intro i s t h
  rw [exec_eq_finish] at h
  rcases finish_cases _ _ _ h with ⟨u, hu, rfl⟩ | ⟨code, -, rfl⟩
  · have hvalid (hw : writesReg i .status = false) : (u.complete .ok).tablesValid = s.tablesValid :=
      (commandOf_flags hu).1.trans (tablesValidAfter_of_not_written hw _)
    refine ⟨fun a ha => (byte_complete .ok).trans (commandOf_byte hu ha), fun r hr hw => ?_, hvalid, ?_⟩
    · exact (readReg_complete hr .ok).trans (commandOf_readReg hu hr hw)
    · rw [commandOf_changes hu]
      exact ⟨rfl, rfl, rfl, rfl, rfl, rfl, rfl⟩
  · exact ⟨fun _ _ => rfl, fun r hr _ => readReg_complete hr code, fun _ => rfl, rfl, rfl, rfl, rfl, rfl, rfl, rfl⟩

end Sys2Proof.Machine

/-! # Steps, refused accesses and soft reset

Which step comes next (R73, R94, R267), which accesses get ERROR (R62), and what accesses while busy and a soft reset leave
unchanged (R70, R272). -/

namespace Sys2Proof.Machine

/-! ## Which step comes next -/

/-- An opcode that uses BAND has it as its command's band, and any other has band 0 (R93). -/
theorem instrOf_bandField {op : Nat} {b : BitVec 5} {i : Instr} (h : instrOf op b = some i) :
    i.bandField = if opUsesBand op then b else 0#5 := by
  unfold instrOf at h
  split at h <;> cases h <;> rfl

/-- Decoding answers well-formed commands only (R94). -/
theorem decode_wf {c : Word} {i : Instr} (h : decode c = .ok i) : i.wf := by
  rcases decode_cases c with ⟨-, hd⟩ | ⟨j, hj, ⟨-, hd⟩ | ⟨-, -, -, hd⟩ | ⟨-, -, -, hd⟩ | ⟨-, -, hband, hd⟩⟩ <;>
    cases hd.symm.trans h
  rw [Instr.wf, instrOf_bandField hj]
  split
  · next huses => exact hband huses
  · decide

/-- An error completes as R243 says, every code but 0x00 being one. -/
theorem complete_eq_completedWith {code : ErrCode} (h : code ≠ .ok) (s : State) : s.complete code = s.completedWith code := by
  simp [State.complete, State.completedWith, h]

section
variable {s : State} {n : Nat} {e : HostEvent} {es : List HostEvent}

theorem step_of_engine_next (hbusy : s.engine = .busy n) (hnext : n = 0 ∨ s.host = []) : step s = engineStep s := by
  unfold step systemStep
  rw [hbusy]
  rcases hnext with rfl | hhost
  · cases s.host <;> rfl
  · rw [hhost]

theorem step_of_access_left (hbusy : s.engine = .busy (n + 1)) (hhost : s.host = e :: es) :
    step s = .next (State.hostEvent { s with engine := .busy n, host := es } e) := by
  simp only [step, systemStep, hbusy, hhost]

theorem step_of_idle_event (hidle : s.engine = .idle) (hhost : s.host = e :: es) :
    step s = .next (State.hostEvent { s with host := es } e) := by
  simp only [step, systemStep, hidle, hhost]

theorem step_of_idle_alone (hidle : s.engine = .idle) (hhost : s.host = []) : step s = .next s := by
  simp only [step, systemStep, hidle, hhost]

end

/-- Settles O5: one equation of the step for each case of the engine and the host. -/
theorem stepRunsDecodedCommand : Obligations.StepRunsDecodedCommand := by
  refine fun s => ⟨fun n hbusy hnext => ?_, fun n e es => step_of_access_left, fun e es => step_of_idle_event,
    step_of_idle_alone⟩
  rw [step_of_engine_next hbusy hnext, engineStep]
  refine ⟨fun i hd => ⟨decode_wf hd, by rw [hd]⟩, fun code hd => ?_⟩
  rw [hd, ← complete_eq_completedWith (decode_error_ne_ok _ _ hd)]
  rfl

/-! ## The address map in numbers -/

/-- The offsets of each kind of location (R60), as numbers. -/
def Location.covers (c : Config) (a : Nat) : Location → Prop
  | .reg _ | .reserved => a < 0x1000
  | .f2i _ => 0x1000 ≤ a ∧ a < 0x2000
  | .sf _ => 0x2000 ≤ a ∧ a < 0x2064
  | .sample => 0x10000 ≤ a ∧ a < 0x20000 ∧ a < 0x10000 + 4 * c.srcLenMax
  | .spec => 0x20000 ≤ a ∧ a < 0x30000 ∧ a < 0x20000 + 8 * c.specCap
  | .tab => 0x100000 ≤ a ∧ a < 0x100000 + 4 * c.tabWords
  | .unmapped => (0x2064 ≤ a ∧ a < 0x10000) ∨ (0x10000 + 4 * c.srcLenMax ≤ a ∧ a < 0x20000) ∨
      (0x20000 + 8 * c.specCap ≤ a ∧ a < 0x30000) ∨ (0x30000 ≤ a ∧ a < 0x100000) ∨ 0x100000 + 4 * c.tabWords ≤ a

theorem locate_covers (c : Config) (a : Nat) : (locate c a).covers c a := by
  unfold locate
  refine iteInduction (motive := Location.covers c a) (fun hpage => ?_) fun hpage => ?_
  · split <;> exact hpage
  repeat' refine iteInduction (motive := Location.covers c a) (fun _ => ?_) fun _ => ?_
  all_goals
    simp only [Location.covers, sampleOffset, specOffset, tabOffset] at *
    omega

/-- Past the ROMs and between and above the RAMs nothing stands (R60); the bounds of R6 keep each RAM inside its window. -/
theorem locate_eq_unmapped_iff {c : Config} (hc : c.wf) (a : Nat) :
    locate c a = .unmapped ↔ (0x2064 ≤ a ∧ a < 0x10000) ∨ (0x10000 + 4 * c.srcLenMax ≤ a ∧ a < 0x20000) ∨
      (0x20000 + 8 * c.specCap ≤ a ∧ a < 0x100000) ∨ 0x100000 + 4 * c.tabWords ≤ a := by
  obtain ⟨-, -, hmax, -⟩ := hc
  have hcap : c.specCap ≤ 0x2000 := by
    simp only [Config.specCap]
    omega
  have hcovers := locate_covers c a
  cases hloc : locate c a <;> simp only [hloc, Location.covers, reduceCtorEq, true_iff, false_iff] at hcovers ⊢ <;> omega

/-- The location is in one of the two ROMs (R49). -/
def Location.isRom : Location → Bool
  | .f2i _ | .sf _ => true
  | .reg _ | .reserved | .sample | .spec | .tab | .unmapped => false

theorem locate_isRom_iff {c : Config} (a : Nat) : (locate c a).isRom = true ↔ 0x1000 ≤ a ∧ a < 0x2064 := by
  have hcovers := locate_covers c a
  cases hloc : locate c a <;>
    simp only [hloc, Location.covers, Location.isRom, Bool.false_eq_true, true_iff, false_iff] at hcovers ⊢ <;> omega

/-! ## Refused accesses (R62) -/

theorem aligned_eq_false_iff {a : Nat} : aligned a = false ↔ a % 4 ≠ 0 := by simp [aligned]

theorem readResponse_refused {s : State} {a : Nat} {narrow : Bool}
    (h : narrow = true ∨ a % 4 ≠ 0 ∨ locate s.cfg a = .unmapped) : s.readResponse a narrow = .errorRead 0#32 := by
  unfold State.readResponse
  split
  · rfl
  · next hn =>
    rcases h with rfl | hmod | hloc
    · exact absurd rfl hn
    · simp [aligned_eq_false_iff.mpr hmod] at hn
    · rw [hloc]

theorem readResponse_okay {s : State} {a : Nat} (hmod : a % 4 = 0) (hloc : locate s.cfg a ≠ .unmapped) :
    ∃ d, s.readResponse a false = .okayRead d := by
  cases h : locate s.cfg a with
  | reg r => exact ⟨_, readResponse_reg (locate_eq_reg_iff.mp h)⟩
  | reserved => exact ⟨_, readResponse_reserved hmod h⟩
  | f2i i => exact ⟨_, readResponse_f2i hmod h⟩
  | sf t => exact ⟨_, readResponse_sf hmod h⟩
  | sample => exact ⟨_, readResponse_ram hmod (.inl h)⟩
  | spec => exact ⟨_, readResponse_ram hmod (.inr (.inl h))⟩
  | tab => exact ⟨_, readResponse_ram hmod (.inr (.inr h))⟩
  | unmapped => exact absurd h hloc

theorem writeRefused_iff {c : Config} {a : Nat} {narrow : Bool} {lanes : BitVec 4} :
    writeRefused c a narrow lanes = true ↔
      narrow = true ∨ lanes ≠ 0xF#4 ∨ a % 4 ≠ 0 ∨ locate c a = .unmapped ∨ (locate c a).isRom = true := by
  simp only [writeRefused, Bool.or_eq_true, bne_iff_ne, Bool.not_eq_true', aligned_eq_false_iff, or_assoc]
  cases locate c a <;> simp [Location.isRom]

/-- The read-only registers and the reserved offsets of the register page ignore what is written (R45, R69). -/
theorem hostWrite_readOnly {s : State} {a : Nat} (h : a < 0x14 ∨ (0x44 ≤ a ∧ a < 0x1000)) (v : Word) :
    s.hostWrite a v = s := by
  unfold State.hostWrite
  cases hloc : locate s.cfg a with
  | reg r =>
    have ha := locate_eq_reg_iff.mp hloc
    cases r with
    | id | version | caps0 | caps1 | caps2 | result0 | result1 | resultIndex | harmCount => rfl
    | _ => simp only [regOffset] at ha; omega
  | reserved | f2i | sf | unmapped => rfl
  | sample => have := locate_eq_sample hloc; omega
  | spec => have := locate_eq_spec hloc; omega
  | tab => have := locate_eq_tab hloc; omega

/-- Settles O50: the refused accesses by the map in numbers. -/
theorem badAccessesGetErrorOnly : Obligations.BadAccessesGetErrorOnly := by
  intro s a narrow lanes v hc x unmapped rom
  have hun : locate s.cfg x = .unmapped ↔ unmapped := locate_eq_unmapped_iff hc x
  have hrom : (locate s.cfg x).isRom = true ↔ rom := locate_isRom_iff x
  have hrefused : writeRefused s.cfg x narrow lanes = true ↔
      narrow = true ∨ lanes ≠ 0xF#4 ∨ x % 4 ≠ 0 ∨ unmapped ∨ rom := by rw [writeRefused_iff, hun, hrom]
  refine ⟨fun h => ?_, fun h => ?_, fun h => hostEvent_write_refused (hrefused.mpr h) v, fun h => ?_,
    fun hn hl hmod hx => ?_⟩
  · rw [State.hostEvent, readResponse_refused (by rwa [hun])]
  · simp only [not_or, Bool.not_eq_true, not_not] at h
    obtain ⟨rfl, hmod, hmapped⟩ := h
    obtain ⟨d, hd⟩ := readResponse_okay (s := s) hmod (mt hun.mp hmapped)
    exact ⟨d, congrArg some hd⟩
  · rw [hostEvent_write_okay (Bool.eq_false_iff.mpr (mt hrefused.mp h))]
  · have hpage : ¬ unmapped ∧ ¬ rom := by
      simp only [unmapped, rom]
      omega
    have hokay : ¬ writeRefused s.cfg x narrow lanes = true := by
      rw [hrefused]
      simp [hn, hl, hmod, hpage]
    rw [hostEvent_write_okay (Bool.eq_false_iff.mpr hokay), hostWrite_readOnly hx]

/-! ## Writes while busy (R70) -/

theorem whenIdle_of_busy {s : State} (t : State) (h : s.isBusy = true) : s.whenIdle t = { s with busyWrite := true } := by
  simp [State.whenIdle, h]

/-- The registers a host writes only while idle (R33 to R40). -/
def operandRegs : List Reg := [.srcLen, .tableSize, .refRate, .amplitude, .cutoff, .freq, .index, .specLen]

/-- They fill the offsets 0x24 to 0x40 (R22). -/
theorem exists_operandReg {a : Nat} (hmod : a % 4 = 0) (hlo : 0x24 ≤ a) (hhi : a ≤ 0x40) :
    ∃ r ∈ operandRegs, a = regOffset r := by
  obtain ⟨k, rfl⟩ := Nat.dvd_of_mod_eq_zero hmod
  have hk : 9 ≤ k ∧ k ≤ 16 := by omega
  obtain ⟨h9, h16⟩ := hk
  interval_cases k <;> decide

theorem writeReg_operand_busy {s : State} {r : Reg} (hr : r ∈ operandRegs) (hbusy : s.isBusy = true) (v : Word) :
    s.writeReg r v = { s with busyWrite := true } := by
  fin_cases hr <;> exact whenIdle_of_busy _ hbusy

theorem hostEvent_write_ram_busy {s : State} {a : BitVec 21} (hbusy : s.isBusy = true) (hmod : a.toNat % 4 = 0)
    (hloc : ramLocation s.cfg a.toNat) (v : Word) :
    s.hostEvent (.write a false 0xF#4 v) = { s with busyWrite := true, response := some .okayWrite } := by
  have hokay : writeRefused s.cfg a.toNat false 0xF#4 = false := by
    rcases hloc with hloc | hloc | hloc <;> simp [writeRefused, aligned, hmod, hloc]
  rw [hostEvent_write_okay hokay]
  rcases hloc with hloc | hloc | hloc <;> simp only [State.hostWrite, hloc, whenIdle_of_busy _ hbusy]

/-- Settles O53: an operand register by its offset, or a RAM word. -/
theorem busyWritesAreDropped : Obligations.BusyWritesAreDropped := by
  intro s a v hbusy hmod hwhere
  rcases hwhere with ⟨hlo, hhi⟩ | hloc
  · obtain ⟨r, hr, ha⟩ := exists_operandReg hmod hlo hhi
    rw [hostEvent_write_reg ha, writeReg_operand_busy hr hbusy]
  · exact hostEvent_write_ram_busy hbusy hmod hloc v

/-! ## What stays while a command is in flight (R70, R73) -/

/-- The two states agree in CMD, the operands, the results, the RAMs and the configuration. -/
def sameCommandData (s t : State) : Prop :=
  t.cmd = s.cmd ∧ t.srcLen = s.srcLen ∧ t.tableSize = s.tableSize ∧ t.refRate = s.refRate ∧ t.amplitude = s.amplitude ∧
    t.cutoff = s.cutoff ∧ t.freq = s.freq ∧ t.index = s.index ∧ t.specLen = s.specLen ∧ t.result0 = s.result0 ∧
    t.result1 = s.result1 ∧ t.resultIndex = s.resultIndex ∧ t.harmCount = s.harmCount ∧ t.mem = s.mem ∧
    t.ramEpoch = s.ramEpoch ∧ t.cfg = s.cfg

theorem sameCommandData_refl (s : State) : sameCommandData s s :=
  ⟨rfl, rfl, rfl, rfl, rfl, rfl, rfl, rfl, rfl, rfl, rfl, rfl, rfl, rfl, rfl, rfl⟩

section
variable {s : State}

theorem whenIdle_busy_keeps (t : State) (hbusy : s.isBusy = true) : sameCommandData s (s.whenIdle t) := by
  rw [whenIdle_of_busy t hbusy]
  exact sameCommandData_refl s

theorem softReset_isBusy : s.softReset.isBusy = false := rfl

/-- While busy, only a soft reset changes more than STATUS and IRQ_EN, and it ends the command. -/
theorem writeReg_busy_keeps {r : Reg} {v : Word} (hbusy : s.isBusy = true) (hstill : (s.writeReg r v).isBusy = true) :
    sameCommandData s (s.writeReg r v) := by
  cases r with
  | id | version | caps0 | caps1 | caps2 | result0 | result1 | resultIndex | harmCount | irqEn | status =>
    exact sameCommandData_refl s
  | ctrl =>
    cases hv : v.getLsbD 0 <;> simp only [State.writeReg, hv, if_true, Bool.false_eq_true, if_false] at hstill ⊢
    · exact sameCommandData_refl s
    · simp [softReset_isBusy] at hstill
  | cmd =>
    simp only [State.writeReg, hbusy, if_true]
    exact sameCommandData_refl s
  | srcLen | tableSize | refRate | amplitude | cutoff | freq | index | specLen => exact whenIdle_busy_keeps _ hbusy

theorem hostWrite_busy_keeps {a : Nat} {v : Word} (hbusy : s.isBusy = true) (hstill : (s.hostWrite a v).isBusy = true) :
    sameCommandData s (s.hostWrite a v) := by
  unfold State.hostWrite at hstill ⊢
  cases hloc : locate s.cfg a with
  | reg r =>
    rw [hloc] at hstill
    exact writeReg_busy_keeps hbusy hstill
  | reserved | f2i | sf | unmapped => exact sameCommandData_refl s
  | sample | spec | tab => exact whenIdle_busy_keeps _ hbusy

/-- An event that leaves the command in flight leaves what it works on. -/
theorem hostEvent_busy_keeps {e : HostEvent} (hbusy : s.isBusy = true) (hstill : (s.hostEvent e).isBusy = true) :
    sameCommandData s (s.hostEvent e) := by
  cases e with
  | read a narrow => exact sameCommandData_refl s
  | write a narrow lanes v =>
    cases hr : writeRefused s.cfg a.toNat narrow lanes with
    | true =>
      rw [hostEvent_write_refused hr]
      exact sameCommandData_refl s
    | false =>
      rw [hostEvent_write_okay hr] at hstill ⊢
      exact hostWrite_busy_keeps hbusy hstill
  | hardReset => exact nomatch hstill

/-- The engine's transition ends the command in flight (R73, R243). -/
theorem engineStep_isBusy {t : State} (h : engineStep s = .next t) : t.isBusy = false := by
  rcases engineStep_cases s with ⟨i, -, he⟩ | ⟨code, -, he⟩ <;> rw [he] at h
  · rw [exec_eq_finish] at h
    rcases finish_cases _ _ _ h with ⟨u, -, rfl⟩ | ⟨code, -, rfl⟩ <;> rfl
  · cases h
    rfl

end

/-- Settles O54: a step that leaves the command in flight is an event, and not the engine's. -/
theorem operandsAreFrozenWhileBusy : Obligations.OperandsAreFrozenWhileBusy := by
  intro s t hbusy ht hstill
  rcases step_cases s with ⟨hidle, -, -⟩ | ⟨e, es, hidle, -, -⟩ | ⟨n, e, es, -, -, hs⟩ | ⟨n, -, -, hs⟩
  · simp [State.isBusy, hidle] at hbusy
  · simp [State.isBusy, hidle] at hbusy
  · rw [hs] at ht
    cases ht
    exact hostEvent_busy_keeps (s := { s with host := es, engine := .busy n }) rfl hstill
  · rw [hs] at ht
    exact absurd hstill (by simp [engineStep_isBusy ht])

/-! ## Soft reset (R272) -/

section
variable {s : State}

/-- An abort writes RAM words and advances the counter of free values. -/
theorem abort_changes (s : State) : s.abort = { s with mem := s.abort.mem, draws := s.abort.draws } := by
  unfold State.abort
  cases s.inFlight with
  | none => rfl
  | some i =>
    refine List.foldlRecOn (motive := fun t : State => t = { s with mem := t.mem, draws := t.draws }) _ _ rfl
      fun t ht r _ => ?_
    rw [ht]
    rfl

theorem abort_of_idle (h : s.isBusy = false) : s.abort = s := by
  cases he : s.engine with
  | idle => simp only [State.abort, State.inFlight, he]
  | busy n => simp [State.isBusy, he] at h

/-- The command in flight is the one its word decodes to. -/
theorem decode_of_inFlight {i : Instr} (h : s.inFlight = some i) : decode s.cmd = .ok i := by
  unfold State.inFlight at h
  split at h
  · cases h
  · cases hd : decode s.cmd <;> rw [hd] at h <;> cases h
    rfl

/-- An abort leaves every byte outside the write set of the command in flight. -/
theorem abort_byte {a : Nat} (h : ∀ i, decode s.cmd = .ok i → outsideRanges (writeRanges s i) a) :
    s.abort.byte a = s.byte a := by
  unfold State.abort
  cases hi : s.inFlight with
  | none => rfl
  | some i =>
    refine List.foldlRecOn (motive := fun t : State => t.byte a = s.byte a) _ _ rfl fun t ht r hr => ?_
    have hout := h i (decode_of_inFlight hi) r hr
    rw [State.byte_writeRam_outside _ _ _ _ (by simpa using hout), ht]

theorem softReset_eq (s : State) :
    s.softReset = { State.afterHardReset s.cfg s.ramEpoch s.abort.draws s.host with
      mem := s.abort.mem, response := s.response } := by
  rw [State.softReset, State.resetRegisters, abort_changes]

end

/-- Settles O59: a soft reset is an abort and the reset of the registers. -/
theorem softResetResult : Obligations.SoftResetResult := by
  intro s v hv t
  have ht : t = { s.softReset with response := some .okayWrite } := by
    refine (hostEvent_write_reg (r := .ctrl) rfl s v).trans ?_
    simp only [State.writeReg, hv, if_true]
  have hmem : t.mem = s.abort.mem := by rw [ht]; rfl
  have hepoch : t.ramEpoch = s.abort.ramEpoch := by rw [ht]; rfl
  refine ⟨?_, by rw [ht]; rfl, fun hidle => by rw [hmem, abort_of_idle hidle], fun a ha => ?_⟩
  · rw [ht, softReset_eq]
    rfl
  · rw [← abort_byte ha, State.byte, State.byte, hmem, hepoch]

end Sys2Proof.Machine

/-! # Encoding

The words of the commands (R90, R93): decoding inverts encoding on well-formed commands, and only their words decode (R94, R95). -/

namespace Sys2Proof.Machine

/-! ## The opcode map -/

/-- The opcode map sends a command's own fields back to the command (R93). -/
theorem instrOf_fields (i : Instr) : instrOf i.opcode.toNat i.bandField = some i := by
  cases i <;> rfl

/-- The opcode map answers a command of the opcode it was given (R93). -/
theorem instrOf_opcode {op : Nat} {b : BitVec 5} {i : Instr} (h : instrOf op b = some i) : i.opcode.toNat = op := by
  unfold instrOf at h
  split at h <;> cases h <;> rfl

theorem opcode_le (i : Instr) : i.opcode.toNat ≤ 0x0B := by
  cases i <;> simp [Instr.opcode]

/-- The reserved opcodes are those above 0x0B (R93). -/
theorem instrOf_eq_none_iff (op : Nat) (b : BitVec 5) : instrOf op b = none ↔ 0x0B < op := by
  constructor
  · intro hnone
    by_contra hle
    have hlt : op < 0x0C := by omega
    interval_cases op <;> cases hnone
  · intro hlt
    cases hi : instrOf op b with
    | none => rfl
    | some i =>
      have hop := instrOf_opcode hi
      have hle := opcode_le i
      omega

theorem exists_instrOf {op : Nat} (h : op ≤ 0x0B) (b : BitVec 5) : ∃ i, instrOf op b = some i :=
  Option.ne_none_iff_exists'.mp fun hnone => absurd ((instrOf_eq_none_iff op b).mp hnone) (by omega)

theorem opUsesBand_iff (op : Nat) : opUsesBand op = true ↔ op = 0x02 ∨ op = 0x07 ∨ op = 0x08 := by
  simp [opUsesBand, or_assoc]

/-- A command whose opcode does not use BAND has zeros there (R93). -/
theorem bandField_of_unused {i : Instr} (h : opUsesBand i.opcode.toNat = false) : i.bandField = 0#5 := by
  rw [instrOf_bandField (instrOf_fields i), h]
  rfl

/-! ## The fields of a word -/

theorem opField_eq (c : Word) : opField c = c.toNat % 2 ^ 8 := by
  simp [opField]

theorem bandBits_toNat (c : Word) : (bandBits c).toNat = c.toNat / 2 ^ 8 % 2 ^ 5 := by
  simp [bandBits, Nat.shiftRight_eq_div_pow]

theorem rsvField_toNat (c : Word) : (rsvField c).toNat = c.toNat / 2 ^ 13 := by
  have hc := c.isLt
  rw [rsvField, BitVec.extractLsb'_toNat, Nat.shiftRight_eq_div_pow]
  exact Nat.mod_eq_of_lt (by omega)

/-- RSV, BAND and OP are all the bits of a word (R90). -/
theorem append_fields (c : Word) : rsvField c ++ bandBits c ++ BitVec.ofNat 8 (opField c) = c := by
  have hop : BitVec.ofNat 8 (opField c) = c.extractLsb' 0 8 := by rw [opField, BitVec.ofNat_toNat, BitVec.setWidth_eq]
  have hhigh : rsvField c ++ bandBits c = c.extractLsb' 8 24 :=
    BitVec.extractLsb'_append_extractLsb'_eq_extractLsb' rfl
  have hall : c.extractLsb' 8 24 ++ c.extractLsb' 0 8 = c.extractLsb' 0 32 :=
    BitVec.extractLsb'_append_extractLsb'_eq_extractLsb' rfl
  rw [hop, hhigh, hall, BitVec.extractLsb'_eq_self]

/-- A word with a command's fields and zeros above is the command's word (R93). -/
theorem encode_of_fields {c : Word} {i : Instr} (hop : i.opcode.toNat = opField c) (hband : i.bandField = bandBits c)
    (hrsv : rsvField c = 0#19) : encode i = c := by
  have hopcode : i.opcode = BitVec.ofNat 8 (opField c) := by rw [← hop, BitVec.ofNat_toNat, BitVec.setWidth_eq]
  rw [encode, hopcode, hband, ← hrsv, append_fields]

/-! ## Decoding, one equation for each check (R94) -/

section
variable {c : Word} {i : Instr}

theorem decode_of_illegal (hop : 0x0B < opField c) : decode c = .error .illegalCmd := by
  rw [decode, (instrOf_eq_none_iff _ _).mpr hop]

theorem decode_of_reserved (hi : instrOf (opField c) (bandBits c) = some i) (hrsv : rsvField c ≠ 0) :
    decode c = .error .reservedBits := by
  simp only [decode, hi, if_pos hrsv]

theorem decode_of_unused_band (hi : instrOf (opField c) (bandBits c) = some i) (hrsv : rsvField c = 0)
    (huses : opUsesBand (opField c) = false) (hband : bandBits c ≠ 0) : decode c = .error .reservedBits := by
  simp only [decode, hi, if_neg (not_not_intro hrsv), if_pos (And.intro huses hband)]

theorem decode_of_bad_band (hi : instrOf (opField c) (bandBits c) = some i) (hrsv : rsvField c = 0)
    (huses : opUsesBand (opField c) = true) (hband : numBands ≤ (bandBits c).toNat) : decode c = .error .badBand := by
  have hzero : ¬ (opUsesBand (opField c) = false ∧ bandBits c ≠ 0) := fun ⟨hnone, _⟩ => absurd hnone (by simp [huses])
  simp only [decode, hi, if_neg (not_not_intro hrsv), if_neg hzero, if_pos (And.intro huses hband)]

theorem decode_of_legal (hi : instrOf (opField c) (bandBits c) = some i) (hrsv : rsvField c = 0)
    (hunused : opUsesBand (opField c) = false → bandBits c = 0)
    (hused : opUsesBand (opField c) = true → (bandBits c).toNat < numBands) : decode c = .ok i := by
  have hzero : ¬ (opUsesBand (opField c) = false ∧ bandBits c ≠ 0) := fun ⟨huses, hband⟩ => hband (hunused huses)
  have hbelow : ¬ (opUsesBand (opField c) = true ∧ numBands ≤ (bandBits c).toNat) :=
    fun ⟨huses, hband⟩ => absurd (hused huses) (by omega)
  simp only [decode, hi, if_neg (not_not_intro hrsv), if_neg hzero, if_neg hbelow]

/-- What a word that decodes has passed: all the checks of R94. -/
theorem fields_of_decode (h : decode c = .ok i) : instrOf (opField c) (bandBits c) = some i ∧ rsvField c = 0 ∧
    (opUsesBand (opField c) = false → bandBits c = 0) := by
  rcases decode_cases c with ⟨-, hd⟩ | ⟨j, hj, ⟨-, hd⟩ | ⟨-, -, -, hd⟩ | ⟨-, -, -, hd⟩ | ⟨hrsv, hunused, -, hd⟩⟩ <;>
    cases hd.symm.trans h
  exact ⟨hj, hrsv, hunused⟩

end

/-- A decode failure completes the engine's transition with its code (R94, R243). -/
theorem engineStep_of_decode_error {s : State} {code : ErrCode} (h : decode s.cmd = .error code) :
    engineStep s = .next (s.completedWith code) := by
  rw [engineStep, h, ← complete_eq_completedWith (decode_error_ne_ok _ _ h)]
  rfl

/-! ## The statements of the encoding -/

/-- Settles O1: the fields of a well-formed command's word pass every check of R94. -/
theorem decodeOfEncode : Obligations.DecodeOfEncode := by
  intro i hwf
  obtain ⟨hop, hband, hrsv⟩ := Laws.EncodedFields.every i
  apply decode_of_legal
  case hi => rw [hop, hband, instrOf_fields]
  case hrsv => exact hrsv
  case hunused => rw [hop, hband]; exact bandField_of_unused
  case hused => rw [hband]; exact fun _ => hwf

/-- Settles O2: the command has the OP and the BAND of the word, whose other bits are zeros. -/
theorem encodeOfDecode : Obligations.EncodeOfDecode := by
  intro w i hd
  obtain ⟨hi, hrsv, hunused⟩ := fields_of_decode hd
  have hband : i.bandField = bandBits w := by
    rw [instrOf_bandField hi]
    cases huses : opUsesBand (opField w) with
    | true => rfl
    | false => exact (hunused huses).symm
  exact ⟨decode_wf hd, encode_of_fields (instrOf_opcode hi) hband hrsv⟩

/-- Settles O3: the checks of R94 in their order, each over the numbers of the word's fields. -/
theorem decodeFollowsItsChecks : Obligations.DecodeFollowsItsChecks := by
  intro c op b rsv hasBand
  have hop : opField c = op := opField_eq c
  have hb : (bandBits c).toNat = b := bandBits_toNat c
  have hr : (rsvField c).toNat = rsv := rsvField_toNat c
  have huses : opUsesBand (opField c) = true ↔ hasBand := by rw [hop]; exact opUsesBand_iff op
  have hunused : opUsesBand (opField c) = false ↔ ¬ hasBand := by rw [← huses, Bool.not_eq_true]
  have hbzero : bandBits c = 0 ↔ b = 0 := by rw [← hb, ← BitVec.toNat_inj]; rfl
  have hrzero : rsvField c = 0 ↔ rsv = 0 := by rw [← hr, ← BitVec.toNat_inj]; rfl
  have hinstr : op ≤ 0x0B → ∃ i, instrOf (opField c) (bandBits c) = some i := fun h => exists_instrOf (hop ▸ h) _
  refine ⟨fun h => decode_of_illegal (hop ▸ h), fun h hrsv => ?_, fun h hrsv hno hband => ?_, fun hrsv hyes hband => ?_,
    fun h hrsv hbelow hzero => ?_, fun s code hs hd => engineStep_of_decode_error (hs ▸ hd)⟩
  · obtain ⟨i, hi⟩ := hinstr h
    exact decode_of_reserved hi (mt hrzero.mp hrsv)
  · obtain ⟨i, hi⟩ := hinstr h
    exact decode_of_unused_band hi (hrzero.mpr hrsv) (hunused.mpr hno) (mt hbzero.mp hband)
  · obtain ⟨i, hi⟩ := hinstr (by omega)
    exact decode_of_bad_band hi (hrzero.mpr hrsv) (huses.mpr hyes) (hb ▸ hband)
  · obtain ⟨i, hi⟩ := hinstr h
    have hd : decode c = .ok i := decode_of_legal hi (hrzero.mpr hrsv) (fun hno => hbzero.mpr (hzero (hunused.mp hno)))
      (fun hyes => hb ▸ hbelow (huses.mp hyes))
    have hword : encode i = c := (encodeOfDecode c i hd).2
    obtain ⟨hopcode, hfield, -⟩ := Laws.EncodedFields.every i
    rw [hword] at hopcode hfield
    exact ⟨i, hd, hopcode ▸ hop, hfield ▸ hb⟩

/-- Settles O4, each word by evaluating the decoder. -/
theorem specWordsDecode : Obligations.SpecWordsDecode :=
  ⟨rfl, rfl, rfl, rfl, rfl, rfl, rfl, rfl, rfl, rfl, rfl⟩

end Sys2Proof.Machine

/-! # The MAP unit

What each of the four commands writes, and the cases of the two indices behind them (R130 to R139). -/

namespace Sys2Proof.Machine

/-! ## What the commands write -/

theorem exec_indexF (s : State) : exec .indexF s = .next { s with
    engine := .idle, done := true, result0 := interpIndex s.freq,
    resultIndex := BitVec.ofNat 32 (bandOfIndex (interpIndex s.freq)) } := rfl

theorem exec_indexX (s : State) : exec .indexX s = .next { s with
    engine := .idle, done := true, result0 := exactIndex s.freq,
    resultIndex := BitVec.ofNat 32 (bandOfIndex (exactIndex s.freq)) } := rfl

theorem exec_rangeI (s : State) : exec .rangeI s = .next { s with
    engine := .idle, done := true, result0 := sf s.clampedIndex, result1 := sf (s.clampedIndex + 1),
    resultIndex := BitVec.ofNat 32 s.clampedIndex } := rfl

theorem exec_rangeF (s : State) : exec .rangeF s = .next { s with
    engine := .idle, done := true, result0 := sf (bandOfIndex (interpIndex s.freq)),
    result1 := sf (bandOfIndex (interpIndex s.freq) + 1),
    resultIndex := BitVec.ofNat 32 (bandOfIndex (interpIndex s.freq)) } := rfl

/-! ## Clamping and bands -/

theorem clampI_eq {lo hi : Int} (h : lo ≤ hi) (v : Int) : clampI v lo hi = max lo (min v hi) := by
  unfold clampI
  split_ifs <;> omega

theorem cast_bandOfIndex (r : Word) : (bandOfIndex r : Int) = max 0 (min (scaled r / 2 ^ 149) 23) := by
  rw [bandOfIndex, floor32, clampI_eq (by norm_num), Int.toNat_of_nonneg (le_max_left _ _)]

theorem cast_clampedIndex (s : State) : (s.clampedIndex : Int) = max 0 (min s.index.toInt 23) := by
  rw [State.clampedIndex, clampI_eq (by norm_num), Int.toNat_of_nonneg (le_max_left _ _)]

/-- A band number in INDEX is not clamped (R136). -/
theorem clampedIndex_of_band {s : State} {i : Nat} (hi : i ≤ 23) (hs : s.index = BitVec.ofNat 32 i) :
    s.clampedIndex = i := by
  have hint : s.index.toInt = i := by
    rw [hs, BitVec.toInt_ofNat', Int.bmod_eq_of_le] <;> omega
  have := cast_clampedIndex s
  omega

/-- The bounds of every band rise (R121). -/
theorem sf_lt_succ : ∀ o ≤ 23, scaled (sf o) < scaled (sf (o + 1)) := by decide

theorem stepInv_eq : stepInv = 0x3DAEE22B#32 := by decide

/-! ## The cases of the indices -/

section
variable {f : Word}

theorem interpIndex_low (h : isNaN f = true ∨ scaled f ≤ scaled f1) : interpIndex f = posZero :=
  if_pos (by simpa using h)

theorem exactIndex_low (h : isNaN f = true ∨ scaled f ≤ scaled f1) : exactIndex f = posZero :=
  if_pos (by simpa using h)

theorem f1_lt_fN : scaled f1 < scaled fN := by decide

/-- Above F1 neither index is in its first case. -/
theorem not_low_of_above (hnan : isNaN f = false) (h : scaled f1 < scaled f) :
    ¬ (isNaN f || decide (scaled f ≤ scaled f1)) = true := by
  simpa [hnan] using h

theorem interpIndex_high (hnan : isNaN f = false) (h : scaled fN ≤ scaled f) : interpIndex f = index23 :=
  (if_neg (not_low_of_above hnan (f1_lt_fN.trans_le h))).trans (if_pos h)

theorem exactIndex_high (hnan : isNaN f = false) (h : scaled fN ≤ scaled f) : exactIndex f = index23 :=
  (if_neg (not_low_of_above hnan (f1_lt_fN.trans_le h))).trans (if_pos h)

/-- Between F1 and FN the interpolation runs on the interval j of the F2I ROM that the scaled frequency falls in (R130). -/
theorem interpIndex_between (hnan : isNaN f = false) (h1 : scaled f1 < scaled f) (hN : scaled f < scaled fN) {p : Word}
    (hp : p = mul32 (sub32 f f1) stepInv) {j : Nat} (hj : (j : Int) = max 0 (min (scaled p / 2 ^ 149) 1022)) :
    interpIndex f = add32 (f2i j) (mul32 (sub32 p (float32 j)) (sub32 (f2i (j + 1)) (f2i j))) := by
  have hclamp : (clampI (floor32 p) 0 1022).toNat = j := by
    rw [floor32, clampI_eq (by norm_num), ← hj, Int.toNat_natCast]
  rw [interpIndex, if_neg (not_low_of_above hnan h1), if_neg hN.not_ge]
  simp only [← hp, hclamp]

theorem exactIndex_between (hnan : isNaN f = false) (h1 : scaled f1 < scaled f) (hN : scaled f < scaled fN) :
    exactIndex f = roundIndex (scaled f).toNat (20 * 2 ^ 149) := by
  rw [exactIndex, if_neg (not_low_of_above hnan h1), if_neg hN.not_ge]

end

/-! ## The statements -/

/-- Settles O16: each of the three cases of INDEX is one of the clamp. -/
theorem rangeIResult : Obligations.RangeIResult := by
  refine ⟨rfl, fun s o ho => ?_⟩
  obtain rfl : s.clampedIndex = o := by
    have := cast_clampedIndex s
    omega
  exact exec_rangeI s

/-- Settles O17: the end of a band and the start of the next are one entry of the SF ROM, and the entries rise. -/
theorem rangesAreContiguous : Obligations.RangesAreContiguous := by
  refine ⟨fun s s' i hi hs hs' => ⟨_, _, exec_rangeI s, exec_rangeI s', ?_⟩,
    fun s => ⟨_, exec_rangeI s, sf_lt_succ _ (clampedIndex_le s)⟩⟩
  simp only [clampedIndex_of_band (by omega) hs, clampedIndex_of_band (by omega) hs']

/-- Settles O18, case by case of the frequency. -/
theorem indexFResult : Obligations.IndexFResult := by
  intro s r hr
  obtain rfl : interpIndex s.freq = r := by
    rcases hr with ⟨hlow, rfl⟩ | ⟨hnan, hhigh, rfl⟩ | ⟨hnan, h1, hN, p, j, hp, hj, rfl⟩
    · exact interpIndex_low hlow
    · exact interpIndex_high hnan hhigh
    · exact interpIndex_between hnan h1 hN (by rw [stepInv_eq]; exact hp) hj
  exact ⟨_, cast_bandOfIndex _, exec_indexF s⟩

/-- Settles O19: both commands take the band of one index, at most 23, so that RESULT_INDEX holds it. -/
theorem rangeFUsesIndexFBand : Obligations.RangeFUsesIndexFBand := by
  refine ⟨rfl, fun s => ⟨_, exec_indexF s, ?_⟩⟩
  have hle := bandOfIndex_le (interpIndex s.freq)
  have hband : (BitVec.ofNat 32 (bandOfIndex (interpIndex s.freq))).toNat = bandOfIndex (interpIndex s.freq) := by
    rw [BitVec.toNat_ofNat]
    omega
  simp only [hband]
  exact ⟨hle, exec_rangeF s⟩

/-- Settles O20, case by case of the frequency. -/
theorem indexXResult : Obligations.IndexXResult := by
  intro s r hr
  obtain rfl : exactIndex s.freq = r := by
    rcases hr with ⟨hlow, rfl⟩ | ⟨hnan, hhigh, rfl⟩ | ⟨hnan, h1, hN, rfl⟩
    · exact exactIndex_low hlow
    · exact exactIndex_high hnan hhigh
    · exact exactIndex_between hnan h1 hN
  exact ⟨_, cast_bandOfIndex _, exec_indexX s⟩

/-- Settles O21: F1 is in the first case of both indices, and FN in the second. -/
theorem indexEndsAreExact : Obligations.IndexEndsAreExact := by
  intro s
  refine ⟨fun hf => ⟨_, _, exec_indexF s, exec_indexX s, ?_⟩, fun hf => ⟨_, _, exec_indexF s, exec_indexX s, ?_⟩⟩
  · have hlow : isNaN s.freq = true ∨ scaled s.freq ≤ scaled f1 := .inr (le_of_eq (congrArg scaled hf))
    exact ⟨interpIndex_low hlow, exactIndex_low hlow⟩
  · have hnan : isNaN s.freq = false := by rw [hf]; decide
    have hhigh : scaled fN ≤ scaled s.freq := (congrArg scaled hf).ge
    exact ⟨interpIndex_high hnan hhigh, exactIndex_high hnan hhigh⟩

end Sys2Proof.Machine

/-! # The logarithmic index

The series of artanh has positive terms, each less than a ninth of the one before where the argument is at most 1/3; the
enclosure adds them rounded outward (R120; log 13). -/

namespace Sys2Proof.Machine

/-! ## The series of artanh -/

/-- The terms of artanh u. -/
noncomputable def artanhTerm (u : ℝ) (k : Nat) : ℝ := u ^ (2 * k + 1) / (2 * k + 1)

/-- What the series of artanh u leaves from its term `k` on. -/
noncomputable def artanhTail (u : ℝ) (k : Nat) : ℝ := ∑' j, artanhTerm u (k + j)

section
variable {u : ℝ}

theorem two_mul_artanh (h0 : -1 ≤ u) (h1 : u ≤ 1) : 2 * Real.artanh u = Real.log ((1 + u) / (1 - u)) := by
  rw [Real.artanh_eq_half_log ⟨h0, h1⟩]
  ring

variable (h0 : 0 ≤ u) (h1 : u ≤ 1 / 3)
include h0 h1

theorem hasSum_artanhTerm : HasSum (artanhTerm u) (Real.artanh u) := by
  have hseries := (Real.hasSum_log_sub_log_of_abs_lt_one (abs_lt.mpr ⟨by linarith, by linarith⟩ : |u| < 1)).div_const 2
  rw [← Real.log_div (by linarith) (by linarith), ← two_mul_artanh (by linarith) (by linarith),
    mul_div_cancel_left₀ _ two_ne_zero] at hseries
  refine hseries.congr_fun fun k => ?_
  rw [artanhTerm]
  ring

theorem artanhTail_zero : artanhTail u 0 = Real.artanh u := by
  simpa [artanhTail] using (hasSum_artanhTerm h0 h1).tsum_eq

theorem summable_artanhTail (k : Nat) : Summable fun j => artanhTerm u (k + j) := by
  simpa only [Nat.add_comm k] using (summable_nat_add_iff k).mpr (hasSum_artanhTerm h0 h1).summable

theorem artanhTail_eq_add (k : Nat) : artanhTail u k = artanhTerm u k + artanhTail u (k + 1) := by
  rw [artanhTail, (summable_artanhTail h0 h1 k).tsum_eq_zero_add, artanhTail]
  simp only [Nat.add_zero, Nat.add_assoc, Nat.add_comm 1]

/-- What is left is at most a geometric series of ratio 1/9. -/
theorem artanhTail_mem (k : Nat) : 0 ≤ artanhTail u k ∧ artanhTail u k ≤ 2 * u ^ (2 * k + 1) := by
  refine ⟨tsum_nonneg fun j => by rw [artanhTerm]; positivity, ?_⟩
  have hterm (j : Nat) : artanhTerm u (k + j) ≤ u ^ (2 * k + 1) * (1 / 2) ^ j := by
    have hden : (1 : ℝ) ≤ 2 * (k + j : Nat) + 1 := by linarith [(k + j).cast_nonneg (α := ℝ)]
    calc artanhTerm u (k + j) ≤ u ^ (2 * (k + j) + 1) := div_le_self (by positivity) hden
      _ = u ^ (2 * k + 1) * (u ^ 2) ^ j := by ring
      _ ≤ u ^ (2 * k + 1) * (1 / 2) ^ j := by gcongr; nlinarith
  have hgeom := hasSum_geometric_two.mul_left (u ^ (2 * k + 1))
  exact (hasSum_le hterm (summable_artanhTail h0 h1 k).hasSum hgeom).trans_eq (mul_comm _ _)

/-- The enclosure of the rest of the series, from one of the power it begins with. -/
theorem atanhTail_contains {num2 den2 : Nat} (hden : 0 < den2) (hsq : u ^ 2 = (num2 : ℝ) / den2) (p n k : Nat)
    {powLo powHi : Nat} (hlo : (powLo : ℝ) ≤ 2 ^ p * u ^ (2 * k + 1)) (hhi : 2 ^ p * u ^ (2 * k + 1) ≤ powHi) :
    ((atanhTail num2 den2 n k powLo powHi).1 : ℝ) ≤ 2 ^ p * artanhTail u k ∧
      2 ^ p * artanhTail u k ≤ (atanhTail num2 den2 n k powLo powHi).2 := by
  induction n generalizing k powLo powHi with
  | zero =>
    obtain ⟨hnonneg, hle⟩ := artanhTail_mem h0 h1 k
    have hscaled := mul_le_mul_of_nonneg_left hle (by positivity : (0 : ℝ) ≤ 2 ^ p)
    simp only [atanhTail]
    push_cast
    exact ⟨by positivity, by linarith⟩
  | succ n ih =>
    have hnext : 2 ^ p * u ^ (2 * (k + 1) + 1) = 2 ^ p * u ^ (2 * k + 1) * num2 / den2 := by
      rw [mul_div_assoc, ← hsq]
      ring
    have hterm : 2 ^ p * artanhTerm u k = 2 ^ p * u ^ (2 * k + 1) / (2 * k + 1 : Nat) := by
      rw [artanhTerm]
      push_cast
      ring
    obtain ⟨hrestLo, hrestHi⟩ := ih (k + 1) (powLo := powLo * num2 / den2) (powHi := ceilDiv (powHi * num2) den2)
      ((cast_div_le_div _ _).trans (by rw [hnext]; push_cast; gcongr))
      (le_trans (by rw [hnext]; push_cast; gcongr) (div_le_ceilDiv hden))
    have htermLo : ((powLo / (2 * k + 1) : Nat) : ℝ) ≤ 2 ^ p * artanhTerm u k :=
      (cast_div_le_div _ _).trans (by rw [hterm]; gcongr)
    have htermHi : 2 ^ p * artanhTerm u k ≤ ceilDiv powHi (2 * k + 1) :=
      le_trans (by rw [hterm]; gcongr) (div_le_ceilDiv (Nat.succ_pos _))
    rw [artanhTail_eq_add h0 h1 k, mul_add]
    simp only [atanhTail]
    push_cast
    exact ⟨by linarith, by linarith⟩

end

theorem atanhEncl_contains (p : Nat) {num den : Nat} (hden : 0 < den) (h : 3 * num ≤ den) :
    ((atanhEncl p num den).1 : ℝ) ≤ 2 ^ p * Real.artanh ((num : ℝ) / den) ∧
      2 ^ p * Real.artanh ((num : ℝ) / den) ≤ (atanhEncl p num den).2 := by
  have hden' : (0 : ℝ) < den := by exact_mod_cast hden
  have h1 : (num : ℝ) / den ≤ 1 / 3 := by
    rw [div_le_div_iff₀ hden' (by norm_num)]
    exact_mod_cast (by omega : num * 3 ≤ 1 * den)
  have h0 : (0 : ℝ) ≤ (num : ℝ) / den := by positivity
  have hpow : 2 ^ p * ((num : ℝ) / den) ^ (2 * 0 + 1) = ((2 ^ p * num : Nat) : ℝ) / den := by
    push_cast
    ring
  rw [← artanhTail_zero h0 h1]
  exact atanhTail_contains h0 h1 (Nat.pow_pos hden) (by push_cast; ring) p _ 0 (hpow ▸ cast_div_le_div _ _)
    (hpow ▸ div_le_ceilDiv hden)

/-! ## Logarithms -/

/-- The value of artanh whose double is the logarithm of a quotient. -/
theorem two_mul_artanh_quotient {x y : ℝ} (hy : 0 < y) (hyx : y ≤ x) :
    2 * Real.artanh ((x - y) / (x + y)) = Real.log (x / y) := by
  have h0 : 0 ≤ (x - y) / (x + y) := div_nonneg (by linarith) (by linarith)
  have h1 : (x - y) / (x + y) ≤ 1 := div_le_one_of_le₀ (by linarith) (by linarith)
  have hsum : x + y ≠ 0 := by linarith
  have hplus : 1 + (x - y) / (x + y) = 2 * x / (x + y) := by field_simp; ring
  have hminus : 1 - (x - y) / (x + y) = 2 * y / (x + y) := by field_simp; ring
  rw [two_mul_artanh (by linarith) h1, hplus, hminus, div_div_div_cancel_right₀ hsum,
    mul_div_mul_left _ _ two_ne_zero]

/-- A logarithm by two values of artanh: that of the quotient brought into [1, 2), and that of 2 (R120). -/
theorem log_eq_artanh {a b e : Nat} (hb : 0 < b) (hle : b * 2 ^ e ≤ a) :
    Real.log ((a : ℝ) / b) =
      2 * Real.artanh (((a - b * 2 ^ e : Nat) : ℝ) / (a + b * 2 ^ e : Nat)) +
        e * (2 * Real.artanh (((1 : Nat) : ℝ) / (3 : Nat))) := by
  have hc : (0 : ℝ) < b * 2 ^ e := by positivity
  have hca : (b : ℝ) * 2 ^ e ≤ a := by exact_mod_cast hle
  have hmain := two_mul_artanh_quotient hc hca
  have htwo : 2 * Real.artanh (((1 : Nat) : ℝ) / (3 : Nat)) = Real.log 2 := by
    convert two_mul_artanh_quotient (x := 2) (y := 1) one_pos one_le_two using 3 <;> norm_num
  rw [Nat.cast_sub hle, htwo]
  push_cast
  rw [hmain, ← Real.log_pow, ← Real.log_mul (div_pos (hc.trans_le hca) hc).ne' (by positivity)]
  congr 1
  field_simp

/-- The quotient of `a` by `b` lies between the power of 2 that `lnEncl` takes and the next one. -/
theorem log2_div_bounds {a b : Nat} (hb : 0 < b) (hab : b ≤ a) :
    b * 2 ^ Nat.log2 (a / b) ≤ a ∧ a < 2 * (b * 2 ^ Nat.log2 (a / b)) := by
  have hne : a / b ≠ 0 := (Nat.div_pos hab hb).ne'
  have hlo := (Nat.le_div_iff_mul_le hb).mp (Nat.log2_self_le hne)
  have hhi := (Nat.div_lt_iff_lt_mul hb).mp (Nat.lt_log2_self (n := a / b))
  rw [pow_succ] at hhi
  constructor <;> nlinarith

/-- Settles O22, by the enclosures of the two values of artanh. -/
theorem logarithmIsEnclosed : Obligations.LogarithmIsEnclosed := by
  intro p a b hb hab
  obtain ⟨hle, hlt⟩ := log2_div_bounds hb hab
  obtain ⟨hlo, hhi⟩ := atanhEncl_contains p (by omega : 0 < a + b * 2 ^ Nat.log2 (a / b))
    (by omega : 3 * (a - b * 2 ^ Nat.log2 (a / b)) ≤ _)
  obtain ⟨htwoLo, htwoHi⟩ := atanhEncl_contains p (num := 1) (den := 3) (by norm_num) le_rfl
  have hscaleLo := mul_le_mul_of_nonneg_left htwoLo (Nat.cast_nonneg (α := ℝ) (Nat.log2 (a / b)))
  have hscaleHi := mul_le_mul_of_nonneg_left htwoHi (Nat.cast_nonneg (α := ℝ) (Nat.log2 (a / b)))
  rw [log_eq_artanh hb hle]
  simp only [lnEncl]
  push_cast at *
  constructor <;> linarith

end Sys2Proof.Machine

/-! # The correctly rounded index and the two ROMs

A real enclosed by two rationals that round to one word rounds to that word. INDEX_X and the F2I ROM search for such an enclosure
(R120, R122, R133; log 13); the SF ROM is held between the midpoints about each entry by comparing 23rd powers (R121). -/

namespace Sys2Proof.Machine

/-! ## Rounding between two ends -/

theorem rn32_of_nat (num : Nat) {den : Nat} (hden : 0 < den) : IsRn32 ((num : ℝ) / den) (rn32 (num : Int) den) := by
  simpa using rationalsRoundToNearestEven num den hden

/-- What rounds to one word is an interval. -/
theorem IsRn32.of_between {x y z : ℝ} {w : Word} (hx : IsRn32 x w) (hz : IsRn32 z w) (h0 : 0 ≤ x) (hxy : x ≤ y)
    (hyz : y ≤ z) : IsRn32 y w := by
  obtain ⟨e, he, -, hwe⟩ := hx
  obtain ⟨e', he', -, hwe'⟩ := hz
  have hy := h0.trans hxy
  have heq : e = e' := by
    have := congrArg magBits ((hwe h0).symm.trans (hwe' (hy.trans hyz)))
    rwa [magBits_mkWord _ (he.1.trans_lt (by norm_num)), magBits_mkWord _ (he'.1.trans_lt (by norm_num))] at this
  rw [abs_of_nonneg h0] at he
  rw [abs_of_nonneg (hy.trans hyz), ← heq] at he'
  rw [hwe h0]
  exact isRn32_mkWord (by rw [abs_of_nonneg hy]; exact he.of_between he' hxy hyz) (by simp [hy])

/-! ## The law and its search -/

/-- T of R120 at the frequency that is a/b times F1. -/
noncomputable def bandLaw (a b : Nat) : ℝ := Real.log ((a : ℝ) / b) / (Real.log 600 / 23)

/-- From two bits of precision on, the lower end for ln 600 is not 0. -/
theorem lnEncl_600_pos {p : Nat} (hp : 2 ≤ p) : 0 < (lnEncl p 600 1).1 := by
  have hpow : 2 ^ 2 ≤ 2 ^ p := Nat.pow_le_pow_right (by norm_num) hp
  have hthird : 0 < (atanhEncl p 1 3).1 := by
    simp only [atanhEncl, atanhTail]
    omega
  have hexp : Nat.log2 (600 / 1) = 9 := by decide
  simp only [lnEncl, hexp]
  omega

/-- A quotient of two enclosed numbers lies between the quotients of opposite ends. -/
theorem bandLaw_bounds {p a b : Nat} (hp : 2 ≤ p) (hb : 0 < b) (hab : b ≤ a) :
    ((23 * (lnEncl p a b).1 * 2 ^ 149 : Nat) : ℝ) / (lnEncl p 600 1).2 ≤ bandLaw a b * 2 ^ 149 ∧
      bandLaw a b * 2 ^ 149 ≤ ((23 * (lnEncl p a b).2 * 2 ^ 149 : Nat) : ℝ) / (lnEncl p 600 1).1 := by
  obtain ⟨hlo, hhi⟩ := logarithmIsEnclosed p a b hb hab
  obtain ⟨hLo, hHi⟩ := logarithmIsEnclosed p 600 1 one_pos (by norm_num)
  have hLoPos : (0 : ℝ) < (lnEncl p 600 1).1 := by exact_mod_cast lnEncl_600_pos hp
  have hquot : bandLaw a b * 2 ^ 149 =
      2 ^ 149 * 23 * (2 ^ p * Real.log ((a : ℝ) / b)) / (2 ^ p * Real.log ((600 : Nat) / (1 : Nat))) := by
    have hlog : Real.log 600 ≠ 0 := (Real.log_pos (by norm_num)).ne'
    rw [bandLaw, Nat.cast_one, div_one, Nat.cast_ofNat]
    field_simp
  have hnum : (0 : ℝ) ≤ 2 ^ p * Real.log ((a : ℝ) / b) :=
    le_trans (Nat.cast_nonneg _) hlo
  rw [hquot]
  push_cast at *
  constructor
  · exact div_le_div₀ (mul_nonneg (by positivity) hnum) (by linarith) (hLoPos.trans_le hLo) hHi
  · exact div_le_div₀ (by positivity) (by linarith) hLoPos hLo

/-- Every word the search answers is the law correctly rounded. -/
theorem indexSearch_isRn32 {a b : Nat} (hb : 0 < b) (hab : b ≤ a) {fuel p : Nat} (hp : 2 ≤ p) {w : Word}
    (h : indexSearch fuel p a b = some w) : IsRn32 (bandLaw a b * 2 ^ 149) w := by
  induction fuel generalizing p with
  | zero => cases h
  | succ fuel ih =>
    simp only [indexSearch] at h
    split at h
    · next hround =>
      obtain ⟨hlo, hhi⟩ := bandLaw_bounds hp hb hab
      have hpos := lnEncl_600_pos hp
      have hpos' : 0 < (lnEncl p 600 1).2 := by
        obtain ⟨hLo, hHi⟩ := logarithmIsEnclosed p 600 1 one_pos (by norm_num)
        exact hpos.trans_le (by exact_mod_cast hLo.trans hHi)
      cases h
      refine (rn32_of_nat _ hpos').of_between ?_ (div_nonneg (Nat.cast_nonneg _) (Nat.cast_nonneg _)) hlo hhi
      rw [hround]
      exact rn32_of_nat _ hpos
    · exact ih (by omega) h

/-- Settles O23: between F1 and FN the law of R120 is the one the search encloses. -/
theorem indexXIsTheRoundedLaw : Obligations.IndexXIsTheRoundedLaw := by
  intro s w T hnan h1 hN hT hw
  have hf1 : scaled f1 = (20 * 2 ^ 149 : Nat) := by decide
  obtain ⟨a, ha⟩ := Int.eq_ofNat_of_zero_le ((Int.natCast_nonneg _).trans (hf1 ▸ h1.le) : 0 ≤ scaled s.freq)
  have hlaw : T = bandLaw a (20 * 2 ^ 149) := by
    rw [hT, ha, bandLaw, div_div, Int.cast_natCast, mul_comm, Nat.cast_mul, Nat.cast_pow]
    rfl
  refine ⟨?_, _, exec_indexX s, ?_⟩
  · rw [ha, Int.toNat_natCast] at hw
    rw [hlaw]
    exact indexSearch_isRn32 (by positivity) (by have := hf1 ▸ ha ▸ h1; omega) (by norm_num) hw
  · simp only [exactIndex_between hnan h1 hN, roundIndex, hw, Option.getD_some]

/-! ## The F2I ROM -/

/-- The search answers at every inner point of the ROM (log 13). This is a fact about the 1022 logarithms the table holds, none of
which stands too near a rounding boundary, so it is evaluated at each, in blocks that keep every evaluation small. -/
theorem indexSearch_answers_blocks : ∀ q < 8, ∀ r < 128,
    (indexSearch 6 64 (1023 + 599 * (1 + 128 * q + r)) 1023).isSome = true := by
  intro q hq
  interval_cases q <;> decide +kernel

theorem f2i_isRn32_inner {i : Nat} (h0 : 0 < i) (h1 : i < 1023) :
    IsRn32 (bandLaw (1023 + 599 * i) 1023 * 2 ^ 149) (f2i i) := by
  have hanswer := indexSearch_answers_blocks ((i - 1) / 128) (by omega) ((i - 1) % 128) (by omega)
  rw [show 1 + 128 * ((i - 1) / 128) + (i - 1) % 128 = i by omega] at hanswer
  obtain ⟨w, hw⟩ := Option.isSome_iff_exists.mp hanswer
  have hword : f2i i = w := by
    rw [f2i, if_neg (by omega), if_neg (by omega), roundIndex, hw, Option.getD_some]
  rw [hword]
  exact indexSearch_isRn32 (by norm_num) (by omega) (by norm_num) hw

/-- At FN the law is 23, which is a binary32 value. -/
theorem f2i_isRn32_last : IsRn32 (bandLaw (1023 + 599 * 1023) 1023 * 2 ^ 149) (f2i 1023) := by
  have hlog : Real.log 600 ≠ 0 := (Real.log_pos (by norm_num)).ne'
  have hquot : ((1023 + 599 * 1023 : Nat) : ℝ) / (1023 : Nat) = 600 := by norm_num
  have hlaw : bandLaw (1023 + 599 * 1023) 1023 * 2 ^ 149 = ((23 * 2 ^ 149 : Nat) : ℝ) / (1 : Nat) := by
    rw [bandLaw, hquot]
    field_simp
    norm_num
  have hword : rn32 ((23 * 2 ^ 149 : Nat) : Int) 1 = f2i 1023 := by decide
  rw [hlaw, ← hword]
  exact rn32_of_nat _ one_pos

theorem f2i_isRn32 {i : Nat} (hi : i < 1024) : IsRn32 (bandLaw (1023 + 599 * i) 1023 * 2 ^ 149) (f2i i) := by
  rcases Nat.eq_zero_or_pos i with rfl | hpos
  · have hlaw : bandLaw (1023 + 599 * 0) 1023 * 2 ^ 149 = 0 := by simp [bandLaw]
    rw [hlaw]
    exact isRn32_zero
  rcases eq_or_lt_of_le (Nat.le_of_lt_succ hi) with rfl | hinner
  · exact f2i_isRn32_last
  · exact f2i_isRn32_inner hpos hinner

/-! ## The SF ROM -/

/-- Twice the midpoint between a magnitude and the next. -/
def twiceMidpoint (e : Nat) : Nat := magOf e + magOf (e + 1)

/-- Between the midpoints to its two neighbours every real rounds to a magnitude. -/
theorem isNearestMag_of_midpoints {x : ℝ} {e : Nat} (he : e + 2 ≤ 0x7F800000) (hlo : (twiceMidpoint e : ℝ) < 2 * x)
    (hhi : 2 * x < twiceMidpoint (e + 1)) : IsNearestMag x (e + 1) := by
  have h0 := cast_magOf_lt (Nat.lt_succ_self e)
  have h1 := cast_magOf_lt (Nat.lt_succ_self (e + 1))
  simp only [twiceMidpoint, Nat.cast_add, Nat.succ_eq_add_one] at *
  rcases le_total x (magOf (e + 1)) with h | h
  · exact (isNearestMag_of_neighbours (by omega) (by linarith) h).2 (.inl hlo)
  · exact (isNearestMag_of_neighbours he h (by linarith)).1 (.inl hhi)

/-- The same, where only a power of the real is rational. -/
theorem isNearestMag_of_pow {x : ℝ} {n N e : Nat} (hx : 0 ≤ x) (hpow : (2 * x) ^ n = N) (he : e + 2 ≤ 0x7F800000)
    (hlo : twiceMidpoint e ^ n < N) (hhi : N < twiceMidpoint (e + 1) ^ n) : IsNearestMag x (e + 1) := by
  refine isNearestMag_of_midpoints he (lt_of_pow_lt_pow_left₀ n (by positivity) ?_)
    (lt_of_pow_lt_pow_left₀ n (by positivity) ?_) <;> rw [hpow] <;> exact_mod_cast ‹_›

/-- (2·F1·b^t)^23 = 40^23·600^t, in units of 2^-149 (R121). -/
theorem bandStart_pow (t : Nat) :
    (2 * (20 * (600 : ℝ) ^ ((t : ℝ) / 23) * 2 ^ 149)) ^ 23 = (((40 * 2 ^ 149) ^ 23 * 600 ^ t : Nat) : ℝ) := by
  have hroot : ((600 : ℝ) ^ ((t : ℝ) / 23)) ^ 23 = 600 ^ t := by
    rw [← Real.rpow_mul_natCast (by norm_num), Nat.cast_ofNat, div_mul_cancel₀ _ (by norm_num), Real.rpow_natCast]
  push_cast
  rw [← hroot]
  ring

/-- Each entry stands between its midpoints, by its 23rd power (R121). -/
theorem sf_between_midpoints : ∀ t < 24,
    sf t = mkWord false (magBits (sf t) - 1 + 1) ∧ magBits (sf t) - 1 + 2 ≤ 0x7F800000 ∧
    twiceMidpoint (magBits (sf t) - 1) ^ 23 < (40 * 2 ^ 149) ^ 23 * 600 ^ t ∧
    (40 * 2 ^ 149) ^ 23 * 600 ^ t < twiceMidpoint (magBits (sf t) - 1 + 1) ^ 23 := by decide +kernel

theorem sf_isRn32 {t : Nat} (ht : t < 24) : IsRn32 (20 * (600 : ℝ) ^ ((t : ℝ) / 23) * 2 ^ 149) (sf t) := by
  obtain ⟨hword, hmax, hlo, hhi⟩ := sf_between_midpoints t ht
  have hnonneg : (0 : ℝ) ≤ 20 * (600 : ℝ) ^ ((t : ℝ) / 23) * 2 ^ 149 := by positivity
  rw [hword]
  refine isRn32_mkWord ?_ (by simpa using hnonneg)
  rw [abs_of_nonneg hnonneg]
  exact isNearestMag_of_pow hnonneg (bandStart_pow t) hmax hlo hhi

/-- Settles O24: the SF ROM by 23rd powers, the F2I ROM by the answers of its search. -/
theorem bandStartsAreRounded : Obligations.BandStartsAreRounded := by
  refine ⟨fun t ht => sf_isRn32 ht, by decide, by decide, by decide, fun i hi => ?_, rfl, rfl⟩
  have hquot : (20 + 11980 * (i : ℝ) / 1023) / 20 = ((1023 + 599 * i : Nat) : ℝ) / (1023 : Nat) := by
    push_cast
    ring
  dsimp only
  rw [hquot]
  exact f2i_isRn32 hi

end Sys2Proof.Machine

/-! # The commands, their checks passed or failed

What each check answers, and what is left of a command once its checks have passed: the converse of `fftFwdCommand_ok` and
its like (R242). -/

namespace Sys2Proof.Machine

/-! ## The end of a command -/

/-- A command that raises nothing completes with its writes (R243). -/
theorem exec_of_ok {i : Instr} {s u : State} (h : commandOf i s = .ok u) : exec i s = .next (u.complete .ok) := by
  rw [exec_eq_finish, h, finish_ok]

/-- A command that raises a code completes with it, nothing written (R240, R244). -/
theorem exec_of_error {i : Instr} {s : State} {code : ErrCode} (h : commandOf i s = .error code) :
    exec i s = .next (s.completedWith code) := by
  rw [exec_eq_finish, h, finish_error, complete_eq_completedWith (commandOf_raises i s code h)]

theorem complete_ok_eq (s : State) : s.complete .ok = { s with engine := .idle, done := true } := rfl

/-! ## A chain of checks -/

theorem ok_bind {ε α β : Type} (a : α) (f : α → Except ε β) : (Except.ok a >>= f) = f a := rfl

theorem error_bind {ε α β : Type} (e : ε) (f : α → Except ε β) : (Except.error e >>= f) = .error e := rfl

/-- A list of results raises what one of them raises. -/
theorem exists_of_mapM_error {ε α β : Type} {f : α → Except ε β} {l : List α} {e : ε} (h : l.mapM f = .error e) :
    ∃ x ∈ l, f x = .error e := by
  induction l with
  | nil => cases h
  | cons x l ih =>
    rw [List.mapM_cons] at h
    cases hx : f x with
    | error e' =>
      rw [hx, error_bind] at h
      exact ⟨x, List.mem_cons_self, hx.trans (by injection h with h; rw [h])⟩
    | ok y =>
      rw [hx, ok_bind] at h
      cases hl : l.mapM f with
      | error e' =>
        rw [hl, error_bind] at h
        obtain ⟨z, hz, hfz⟩ := ih (hl.trans (by injection h with h; rw [h]))
        exact ⟨z, List.mem_cons_of_mem x hz, hfz⟩
      | ok ys =>
        rw [hl, ok_bind] at h
        cases h

/-! ## The checks -/

theorem checkBand_legal {b : BitVec 5} (h : b.toNat < 24) : checkBand b = .ok b.toNat := if_neg h.not_ge

theorem checkBand_illegal {b : BitVec 5} (h : 24 ≤ b.toNat) : checkBand b = .error .badBand := if_pos h

theorem checkLength_badLength {len max : Nat} (h : len % 2 = 1 ∨ len < 4) : checkLength len max = .error .badLength :=
  if_pos h

theorem checkLength_capacity {len max : Nat} (heven : len % 2 = 0) (hmin : 4 ≤ len) (hmax : max < len) :
    checkLength len max = .error .capacity := by
  rw [checkLength, if_neg (by omega), if_pos hmax]

section
variable {s : State}

theorem checkR_legal (hfin : isFinite s.refRate = true) (hpos : 0 < scaled s.refRate) : checkR s = .ok s.refRate :=
  if_pos ⟨hfin, hpos⟩

theorem checkA_finite (h : isFinite s.amplitude = true) : checkA s = .ok s.amplitude := if_pos h

theorem checkA_not_finite (h : isFinite s.amplitude = false) : checkA s = .error .badOperand :=
  if_neg (Bool.eq_false_iff.mp h)

theorem checkC_not_nan (h : isNaN s.cutoff = false) : checkC s = .ok s.cutoff := if_neg (Bool.eq_false_iff.mp h)

theorem checkC_nan (h : isNaN s.cutoff = true) : checkC s = .error .badOperand := if_pos h

/-- The check of the samples, one by one (R160). -/
theorem checkSamples_eq (s : State) (L : Nat) :
    checkSamples s L =
      if ∀ n < L, isFinite (s.word (sampleOffset n)) = true then .ok (s.words (sampleOffset 0) L)
      else .error .badOperand := by
  have hall : (s.words (sampleOffset 0) L).all isFinite = true ↔
      ∀ n < L, isFinite (s.word (sampleOffset n)) = true := by
    simp [State.words, sampleOffset]
  simp only [checkSamples, hall]

/-! ## What is left when the checks have passed -/

theorem fftFwdCommand_of_checks (hL : legalLength s.srcLen.toNat s.cfg.srcLenMax)
    (hxs : ∀ n < s.srcLen.toNat, isFinite (s.word (sampleOffset n)) = true) :
    fftFwdCommand s =
      .ok (s.storeProfile (forwardProfile s.cfg (s.words (sampleOffset 0) s.srcLen.toNat))) := by
  simp only [fftFwdCommand, checkL, checkLength_legal _ _ hL, checkSamples_eq, ok_bind, if_pos hxs]

/-- SYNTH is the synthesis of its row, stored (R170). -/
theorem synthCommand_of_checks {b : BitVec 5} (hb : b.toNat < 24)
    (hM : legalLength s.tableSize.toNat s.cfg.tableSizeMax) (hA : isFinite s.amplitude = true)
    (hc : isNaN s.cutoff = false) :
    synthCommand b s =
      (synthRow s.cfg s.harm s.amplitude s.cutoff s.tableSize.toNat).map
        fun x => s.storeRow s.tableSize.toNat b.toNat x.1 x.2 := by
  simp only [synthCommand, checkBand_legal hb, checkM, checkLength_legal _ _ hM, checkA_finite hA, checkC_not_nan hc,
    ok_bind]
  cases synthRow s.cfg s.harm s.amplitude s.cutoff s.tableSize.toNat <;> rfl

/-- BUILD is the synthesis of its rows, stored (R205). -/
theorem buildCommand_of_checks (hM : legalLength s.tableSize.toNat s.cfg.tableSizeMax)
    (hR : isFinite s.refRate = true) (hR0 : 0 < scaled s.refRate) (hA : isFinite s.amplitude = true) :
    buildCommand s =
      (buildRows s.cfg s.harm s.amplitude s.refRate s.tableSize.toNat).map
        (s.storeTables s.tableSize.toNat s.refRate) := by
  simp only [buildCommand, checkM, checkLength_legal _ _ hM, checkR_legal hR hR0, checkA_finite hA, ok_bind]
  cases buildRows s.cfg s.harm s.amplitude s.refRate s.tableSize.toNat <;> rfl

/-- BUILD_AUDIO is the synthesis of its rows from the profile of the samples, both stored (R210). -/
theorem buildAudioCommand_of_checks (hL : legalLength s.srcLen.toNat s.cfg.srcLenMax)
    (hM : legalLength s.tableSize.toNat s.cfg.tableSizeMax) (hR : isFinite s.refRate = true)
    (hR0 : 0 < scaled s.refRate) (hA : isFinite s.amplitude = true)
    (hxs : ∀ n < s.srcLen.toNat, isFinite (s.word (sampleOffset n)) = true) {H : List (Word × Word)}
    (hH : H = forwardProfile s.cfg (s.words (sampleOffset 0) s.srcLen.toNat)) :
    buildAudioCommand s =
      (buildRows s.cfg (harmOf H) s.amplitude s.refRate s.tableSize.toNat).map
        ((s.storeProfile H).storeTables s.tableSize.toNat s.refRate) := by
  simp only [buildAudioCommand, checkL, checkM, checkLength_legal _ _ hL, checkLength_legal _ _ hM, checkR_legal hR hR0,
    checkA_finite hA, checkSamples_eq, if_pos hxs, ok_bind, ← hH]
  cases buildRows s.cfg (harmOf H) s.amplitude s.refRate s.tableSize.toNat <;> rfl

end

/-! ## The included bins (R170) -/

theorem mem_includedBins {harm : Nat → Word × Word} {A : Word} {K : Nat} {y : Word × Word} :
    y ∈ includedBins harm A K ↔ ∃ k, 1 ≤ k ∧ k ≤ K ∧ synthBin (mul32 A 0x3F000000#32) (harm k) = y := by
  simp only [includedBins, List.mem_map, List.mem_range]
  constructor
  · rintro ⟨j, hj, rfl⟩
    exact ⟨j + 1, by omega, by omega, rfl⟩
  · rintro ⟨k, hk, hK, rfl⟩
    exact ⟨k - 1, by omega, by rw [Nat.sub_add_cancel hk]⟩

/-- Whether both parts of a bin are finite. -/
abbrev finiteBin (y : Word × Word) : Prop := isFinite y.1 = true ∧ isFinite y.2 = true

section
variable {cfg : Config} {harm : Nat → Word × Word} {A c R : Word} {M : Nat}

/-- The check of a row's included bins, one by one (R170). -/
theorem synthRow_eq (cfg : Config) (harm : Nat → Word × Word) (A c : Word) (M : Nat) :
    synthRow cfg harm A c M =
      if ∀ y ∈ includedBins harm A (gateCount c M), finiteBin y then
        .ok (irfft cfg (allBins (includedBins harm A (gateCount c M)) M) M, gateCount c M)
      else .error .badOperand := by
  simp [synthRow, finiteBin]

theorem synthRow_of_finite (h : ∀ y ∈ includedBins harm A (gateCount c M), finiteBin y) :
    synthRow cfg harm A c M =
      .ok (irfft cfg (allBins (includedBins harm A (gateCount c M)) M) M, gateCount c M) := by
  rw [synthRow_eq, if_pos h]

theorem synthRow_of_not_finite {k : Nat} (hk : 1 ≤ k) (hK : k ≤ gateCount c M)
    (h : ¬ finiteBin (synthBin (mul32 A 0x3F000000#32) (harm k))) : synthRow cfg harm A c M = .error .badOperand := by
  rw [synthRow_eq, if_neg fun hall => h (hall _ (mem_includedBins.mpr ⟨k, hk, hK, rfl⟩))]

/-- Rows whose included bins are all finite are built (R205). -/
theorem buildRows_of_finite (h : ∀ m < 24, ∀ y ∈ includedBins harm A (gateCount (cut m M R).1 M), finiteBin y) :
    ∃ rows, buildRows cfg harm A R M = .ok rows := by
  cases hrows : buildRows cfg harm A R M with
  | ok rows => exact ⟨rows, rfl⟩
  | error e =>
    obtain ⟨m, hm, hband⟩ := exists_of_mapM_error hrows
    rw [synthRow_of_finite (h m (List.mem_range.mp hm)), ok_bind] at hband
    cases hband

/-- One included bin of one band that is not finite stops the build (R242). -/
theorem buildRows_of_not_finite {m k : Nat} (hm : m < 24) (hk : 1 ≤ k) (hK : k ≤ gateCount (cut m M R).1 M)
    (h : ¬ finiteBin (synthBin (mul32 A 0x3F000000#32) (harm k))) : buildRows cfg harm A R M = .error .badOperand := by
  cases hrows : buildRows cfg harm A R M with
  | ok rows =>
    have hband := (mapM_ok_iff _ _ _).mp hrows
    have hm' : m < (List.range numBands).length := by simpa using hm
    have := hband.get hm' (hband.length_eq ▸ hm')
    rw [List.get_eq_getElem, List.getElem_range, synthRow_of_not_finite hk hK h, error_bind] at this
    cases this
  | error e =>
    obtain ⟨m', -, hband⟩ := exists_of_mapM_error hrows
    rw [synthRow_eq] at hband
    split at hband
    · cases hband
    · injection hband with he
      rw [he]

end

end Sys2Proof.Machine

/-! # Cutoffs and gate counts

Rounding is monotone, so a higher band has no higher cutoff and admits no more harmonics (R159, R192, R193). -/

namespace Sys2Proof.Machine

/-! ## Rounding is monotone -/

/-- A larger real has no smaller nearest magnitude: neighbours of one midpoint are not both even. -/
theorem IsNearestMag.mono {x y : ℝ} {e f : Nat} (hx : IsNearestMag x e) (hy : IsNearestMag y f) (hxy : x ≤ y) :
    e ≤ f := by
  rw [isNearestMag_iff] at hx hy
  obtain ⟨he, hx⟩ := hx
  obtain ⟨-, hy⟩ := hy
  by_contra! hlt
  have hup := (hy e he).1 hlt
  rcases Nat.lt_or_ge (f + 1) e with hgap | hnext
  · have hup' : 2 * y ≤ (magOf f : ℝ) + magOf e := hup.elim le_of_lt fun h => h.1.le
    have hdown : (magOf (f + 1) : ℝ) + magOf e ≤ 2 * x :=
      ((hx (f + 1) (by omega)).2 hgap).elim le_of_lt fun h => h.1.ge
    have hstep : (magOf f : ℝ) < magOf (f + 1) := cast_magOf_lt (Nat.lt_succ_self f)
    linarith
  · rcases hup, (hx f (by omega)).2 hlt with ⟨h | ⟨h, hf⟩, h' | ⟨h', he'⟩⟩
    · linarith
    · linarith
    · linarith
    · omega

/-- A larger quotient rounds to no smaller magnitude. -/
theorem roundMag_mono {n d n' d' : Nat} (hd : 0 < d) (hd' : 0 < d') (h : n * d' ≤ n' * d) :
    roundMag n d ≤ roundMag n' d' := by
  refine (roundMag_isNearestMag n d hd).mono (roundMag_isNearestMag n' d' hd') ?_
  rw [div_le_div_iff₀ (by exact_mod_cast hd) (by exact_mod_cast hd')]
  exact_mod_cast h

theorem roundMag_le_inf (n d : Nat) : roundMag n d ≤ 0x7F800000 := Nat.min_le_left _ _

/-- The magnitude of 2^127, in units of 2^-149: half of what infinity stands for. -/
theorem magOf_two_pow_127 : magOf 0x7F000000 = 2 ^ 23 * 2 ^ 253 := magOf_shift 253 (2 ^ 23) (by norm_num) (.inr le_rfl)

theorem roundMag_two_pow_127 : roundMag (2 ^ 23 * 2 ^ 253) 1 = 0x7F000000 := by decide +kernel

theorem roundMag_le_two_pow_127 {n d : Nat} (hd : 0 < d) (h : n ≤ 2 ^ 23 * 2 ^ 253 * d) : roundMag n d ≤ 0x7F000000 := by
  rw [← roundMag_two_pow_127]
  exact roundMag_mono hd Nat.one_pos (by omega)

/-! ## Words that are not negative -/

theorem isFinite_mkWord (neg : Bool) {e : Nat} (he : e < 0x7F800000) : isFinite (mkWord neg e) = true := by
  rw [isFinite_iff, magBits_mkWord neg (by omega)]
  exact he

theorem mul32_mkWord {e f : Nat} (he : e < 0x7F800000) (hf : f < 0x7F800000) :
    mul32 (mkWord false e) (mkWord false f) = mkWord false (roundMag (magOf e * magOf f) (2 ^ 149)) := by
  rw [mul32_finite (isFinite_mkWord _ he) (isFinite_mkWord _ hf), signBit_mkWord _ (by omega), signBit_mkWord _ (by omega),
    magBits_mkWord _ (by omega), magBits_mkWord _ (by omega), bne_self_eq_false]

theorem div32_mkWord {e f : Nat} (he : e < 0x7F800000) (hf : f < 0x7F800000) (hf0 : 0 < f) :
    div32 (mkWord false e) (mkWord false f) = mkWord false (roundMag (magOf e * 2 ^ 149) (magOf f)) := by
  have hne : scaled (mkWord false f) ≠ 0 := by
    rw [Ne, scaled_eq_zero_iff, magBits_mkWord _ (by omega)]
    exact hf0.ne'
  rw [div32_finite (isFinite_mkWord _ he) (isFinite_mkWord _ hf), if_neg hne, signBit_mkWord _ (by omega),
    signBit_mkWord _ (by omega), magBits_mkWord _ (by omega), magBits_mkWord _ (by omega), bne_self_eq_false]

/-- A word of a positive value is its bits 30:0. -/
theorem eq_mkWord_of_pos {w : Word} (h : 0 < scaled w) : w = mkWord false (magBits w) := by
  have hsign : signBit w = false := by
    rw [Bool.eq_false_iff, ne_eq, signBit_eq_true_iff h.ne', Int.cast_lt_zero]
    exact h.not_gt
  rw [← hsign, mkWord_signBit_magBits]

/-- 0.5, by which SYNTH and CUTOFF multiply (R157, R192). -/
theorem half_eq : (0x3F000000#32 : Word) = mkWord false 0x3F000000 := rfl

theorem magOf_half : magOf 0x3F000000 = 2 ^ 148 := magOf_shift 125 (2 ^ 23) (by norm_num) (.inr le_rfl)

/-- Half of a finite value is at most 2^127. -/
theorem roundMag_half_le {e : Nat} (he : e < 0x7F800000) :
    roundMag (magOf e * magOf 0x3F000000) (2 ^ 149) ≤ 0x7F000000 := by
  refine roundMag_le_two_pow_127 (Nat.two_pow_pos _) ?_
  have hlt := magOf_strictMono he
  rw [magOf_inf] at hlt
  rw [magOf_half]
  calc magOf e * 2 ^ 148 ≤ 2 ^ 24 * 2 ^ 253 * 2 ^ 148 := Nat.mul_le_mul_right _ hlt.le
    _ = 2 ^ 23 * 2 ^ 253 * 2 ^ 149 := by norm_num

/-- Half of a finite word is finite. -/
theorem isFinite_mul32_half {A : Word} (h : isFinite A = true) : isFinite (mul32 A 0x3F000000#32) = true := by
  rw [mul32_finite h (by decide)]
  exact isFinite_mkWord _ ((roundMag_half_le ((isFinite_iff A).mp h)).trans_lt (by norm_num))

/-! ## The cutoffs of the bands (R192) -/

/-- A positive table size is a finite word of at least 1. -/
theorem float32_eq {M : Nat} (h0 : 0 < M) (hM : M < 2 ^ 32) :
    ∃ f, 0x3F800000 ≤ f ∧ f ≤ 0x4F800000 ∧ float32 M = mkWord false f := by
  have hone : roundMag (1 * 2 ^ 149) 1 = 0x3F800000 := by decide +kernel
  have htop : roundMag (2 ^ 32 * 2 ^ 149) 1 = 0x4F800000 := by decide +kernel
  refine ⟨roundMag (M * 2 ^ 149) 1, ?_, ?_, ?_⟩
  · rw [← hone]
    exact roundMag_mono Nat.one_pos Nat.one_pos (by omega)
  · rw [← htop]
    exact roundMag_mono Nat.one_pos Nat.one_pos (by omega)
  · have hnonneg : ¬ ((M : Int) * 2 ^ 149 < 0) := not_lt.mpr (by positivity)
    have habs : ((M : Int) * 2 ^ 149).natAbs = M * 2 ^ 149 := by rw [Int.natAbs_mul, Int.natAbs_natCast]; rfl
    rw [float32, rn32, decide_eq_false hnonneg, habs]

/-- SF holds finite positive words. -/
theorem sf_eq_mkWord :
    ∀ t ≤ 24, sf t = mkWord false (magBits (sf t)) ∧ 0 < magBits (sf t) ∧ magBits (sf t) < 0x7F800000 := by
  decide

/-- SF rises, in bits 30:0 as in value (R121). -/
theorem magBits_sf_lt_succ : ∀ t < 24, magBits (sf t) < magBits (sf (t + 1)) := by decide

theorem magBits_sf_le {m m' : Nat} (h : m ≤ m') (hm' : m' ≤ 24) : magBits (sf m) ≤ magBits (sf m') := by
  induction m', h using Nat.le_induction with
  | base => exact le_rfl
  | succ t _ ih => exact (ih (by omega)).trans (magBits_sf_lt_succ t (by omega)).le

/-- The cutoffs of all bands divide one number, the frequency of the table's last harmonic over its size. -/
theorem exists_cut_eq {M : Nat} {R : Word} (hM0 : 0 < M) (hM : M < 2 ^ 32) (hR : isFinite R = true) (hR0 : 0 < scaled R) :
    ∃ q, ∀ m < 24, (cut m M R).1 = mkWord false (roundMag (magOf q * 2 ^ 149) (magOf (magBits (sf (m + 1))))) := by
  rw [isFinite_iff] at hR
  obtain ⟨f, hf1, hf, hfloat⟩ := float32_eq hM0 hM
  obtain ⟨h, hh⟩ : ∃ h, roundMag (magOf 0x3F000000 * magOf (magBits R)) (2 ^ 149) = h := ⟨_, rfl⟩
  have hhle : h ≤ 0x7F000000 := by
    rw [← hh, Nat.mul_comm]
    exact roundMag_half_le hR
  obtain ⟨q, hq⟩ : ∃ q, roundMag (magOf h * 2 ^ 149) (magOf f) = q := ⟨_, rfl⟩
  have hqle : q ≤ 0x7F000000 := by
    have hhmag : magOf h ≤ 2 ^ 23 * 2 ^ 253 := magOf_two_pow_127 ▸ magOf_strictMono.monotone hhle
    have hfmag : 2 ^ 149 ≤ magOf f := by
      have hone : magOf 0x3F800000 = 2 ^ 149 := magOf_shift 126 (2 ^ 23) (by norm_num) (.inr le_rfl)
      exact hone ▸ magOf_strictMono.monotone hf1
    rw [← hq]
    exact roundMag_le_two_pow_127 (by omega) (Nat.mul_le_mul hhmag hfmag)
  refine ⟨q, fun m hm => ?_⟩
  obtain ⟨hsf, hsf0, hsfInf⟩ := sf_eq_mkWord (m + 1) hm
  rw [cut, eq_mkWord_of_pos hR0, half_eq, mul32_mkWord (by norm_num) hR, hh, hfloat,
    div32_mkWord (by omega) (by omega) (by omega), hq]
  dsimp only
  rw [hsf, div32_mkWord (by omega) hsfInf hsf0, ← hsf]

/-- A higher band has no higher cutoff (R193). -/
theorem scaled_cut_le {M m m' : Nat} {R : Word} (hM0 : 0 < M) (hM : M < 2 ^ 32) (hR : isFinite R = true)
    (hR0 : 0 < scaled R) (hm : m ≤ m') (hm' : m' < 24) : scaled (cut m' M R).1 ≤ scaled (cut m M R).1 := by
  obtain ⟨q, hq⟩ := exists_cut_eq hM0 hM hR hR0
  have hpos (t : Nat) (ht : t ≤ 24) : 0 < magOf (magBits (sf t)) :=
    Nat.pos_of_ne_zero fun h0 => (sf_eq_mkWord t ht).2.1.ne' (magOf_eq_zero_iff.mp h0)
  have hle : roundMag (magOf q * 2 ^ 149) (magOf (magBits (sf (m' + 1)))) ≤
      roundMag (magOf q * 2 ^ 149) (magOf (magBits (sf (m + 1)))) :=
    roundMag_mono (hpos _ (by omega)) (hpos _ (by omega))
      (Nat.mul_le_mul_left _ (magOf_strictMono.monotone (magBits_sf_le (by omega) (by omega))))
  have hinf := roundMag_le_inf (magOf q * 2 ^ 149)
  rw [hq m' hm', hq m (by omega), scaled_mkWord _ ((hinf _).trans_lt (by norm_num)),
    scaled_mkWord _ ((hinf _).trans_lt (by norm_num))]
  simpa using magOf_strictMono.monotone hle

/-! ## The gate (R159) -/

/-- The gate count as a number: no more than M/2, and no more than cutoff times M. -/
theorem le_gateCount_iff {c : Word} {M k : Nat} (hk : 1 ≤ k) :
    k ≤ gateCount c M ↔ k ≤ M / 2 ∧ (k : Int) * 2 ^ 149 ≤ scaled c * M := by
  unfold gateCount
  split
  · next hneg =>
    have hcM : scaled c * M ≤ 0 := mul_nonpos_of_nonpos_of_nonneg hneg.le (by positivity)
    refine ⟨fun h => by omega, fun ⟨_, h⟩ => absurd (h.trans hcM) ?_⟩
    rw [not_le]
    positivity
  · next hnonneg =>
    obtain ⟨n, hn⟩ := Int.eq_ofNat_of_zero_le (not_lt.mp hnonneg)
    rw [hn, Int.toNat_natCast, le_min_iff, Nat.le_div_iff_mul_le (Nat.two_pow_pos 149)]
    exact and_congr_right fun _ => by exact_mod_cast Iff.rfl

/-- A higher cutoff admits no fewer harmonics (R159). -/
theorem gateCount_mono {c c' : Word} (h : scaled c ≤ scaled c') (M : Nat) : gateCount c M ≤ gateCount c' M := by
  rcases Nat.eq_zero_or_pos (gateCount c M) with h0 | hpos
  · omega
  · obtain ⟨hM, hc⟩ := (le_gateCount_iff hpos).mp le_rfl
    exact (le_gateCount_iff hpos).mpr ⟨hM, hc.trans (mul_le_mul_of_nonneg_right h (by positivity))⟩

/-- Band 0 admits every harmonic that any band admits (R193). -/
theorem gateCount_cut_le {M m m' : Nat} {R : Word} (hM0 : 0 < M) (hM : M < 2 ^ 32) (hR : isFinite R = true)
    (hR0 : 0 < scaled R) (hm : m ≤ m') (hm' : m' < 24) : gateCount (cut m' M R).1 M ≤ gateCount (cut m M R).1 M :=
  gateCount_mono (scaled_cut_le hM0 hM hR hR0 hm hm') M

/-- An infinite cutoff admits every harmonic or none (R159). -/
theorem gateCount_inf {c : Word} (h : isInf c = true) (M : Nat) :
    gateCount c M = if signBit c = true then 0 else M / 2 := by
  have hmag : magOf (magBits c) = 2 ^ 24 * 2 ^ 253 := by rw [(isInf_iff c).mp h, magOf_inf]
  split
  · next hsign =>
    rw [gateCount, if_pos]
    rw [scaled, if_pos hsign, hmag]
    norm_num
  · next hsign =>
    refine le_antisymm (gateCount_le c M) ?_
    rcases Nat.eq_zero_or_pos (M / 2) with h0 | hpos
    · omega
    · refine (le_gateCount_iff hpos).mpr ⟨le_rfl, ?_⟩
      rw [scaled, if_neg hsign, hmag]
      omega

/-- Settles O32: the gate as a comparison of integers; bin 0 is the first of all bins. -/
theorem gateIsExact : Obligations.GateIsExact := by
  intro c M _
  exact ⟨gateCount_le c M, fun _ k hk hkM => by rw [le_gateCount_iff hk, and_iff_right hkM], fun h => gateCount_inf h M,
    fun _ _ => rfl⟩

end Sys2Proof.Machine

/-! # The spectrum and the rows

What FFT_FWD and SYNTH store and read back, which bins a row is made of, and the commands of the FWD, SYN and SEQ units that
end in these (R156 to R170, R205, R210). -/

namespace Sys2Proof.Machine

/-- Settles O25: the enclosure by the series of cos, after the reduction to the first quadrant. -/
theorem cosineIsEnclosed : Obligations.CosineIsEnclosed := fun p t den hden heven => cosEncl_contains p t den hden heven

/-! ## The stored spectrum (R160) -/

section
variable {s : State} {H : List (Word × Word)} {k : Nat}

/-- The words of an entry, real part first (R47). -/
theorem specWords_getD (hk : k < H.length) (q : Nat) (hq : q < 2) :
    (specWords H).getD (2 * k + q) 0#32 = [H[k].1, H[k].2].getD q 0#32 := by
  rw [Nat.mul_comm]
  exact getD_flatMap_uniform _ 2 _ H (fun _ _ => rfl) k q hk hq

theorem specEntry_storeProfile (hk : k < H.length) : (s.storeProfile H).specEntry k = H[k] := by
  have hlen := specWords_length H
  have word (q : Nat) (hq : q < 2) :
      (s.storeProfile H).word (specOffset k + 4 * q) = [H[k].1, H[k].2].getD q 0#32 := by
    rw [← specWords_getD hk q hq, ← s.word_writeRam_inside (specOffset 0) _ _ (by omega),
      show specOffset 0 + 4 * (2 * k + q) = specOffset k + 4 * q by simp only [specOffset]; omega]
    rfl
  exact Prod.ext (word 0 (by norm_num)) (word 1 (by norm_num))

/-- An entry of the measured profile (R156). -/
theorem forwardProfile_getElem (cfg : Config) (xs : List Word) (hk : k < (forwardProfile cfg xs).length) :
    (forwardProfile cfg xs)[k] =
      (mul32 (rfft cfg xs k).2 (rn32 (2 * 2 ^ 149) xs.length),
        mul32 (neg32 (rfft cfg xs k).1) (rn32 (2 * 2 ^ 149) xs.length)) := by
  simp [forwardProfile]

/-- A stored profile is the spectrum the rows are made from (R161, R210). -/
theorem harm_storeProfile (hH : H.length < 2 ^ 32) : (s.storeProfile H).harm = harmOf H := by
  have hlen : (s.storeProfile H).specLen.toNat = H.length := Nat.mod_eq_of_lt hH
  funext k
  rw [State.harm, harmOf, hlen]
  split
  · next hk => rw [specEntry_storeProfile hk, List.getD_eq_getElem _ _ hk]
  · next hk => rw [List.getD_eq_default _ _ (not_lt.mp hk)]

end

/-- Settles O30: the stored spectrum read back entry by entry, and the frame of its write. -/
theorem fftFwdResult : Obligations.FftFwdResult := by
  rintro s L rfl hL hxs
  refine ⟨_, exec_of_ok (fftFwdCommand_of_checks hL hxs), ?_, fun k hk => ?_, fun a ha => ?_⟩
  · simp [complete_ok_eq, State.storeProfile, State.writeRam]
  · have hentry := specEntry_storeProfile (s := s)
      (H := forwardProfile s.cfg (s.words (sampleOffset 0) s.srcLen.toNat)) (k := k) (by simp; omega)
    rw [forwardProfile_getElem, words_length] at hentry
    exact ⟨congrArg Prod.fst hentry, congrArg Prod.snd hentry⟩
  · rw [byte_complete, byte_storeProfile]
    simp only [outsideRanges, List.mem_singleton, forall_eq, forwardProfile_length, words_length]
    simp only [specOffset] at ha ⊢
    omega

/-- Settles O31: the checks of the length and of the samples, in their order. -/
theorem fftFwdErrors : Obligations.FftFwdErrors := by
  refine fun s => ⟨fun h => exec_of_error ?_, fun heven hmin hmax => exec_of_error ?_,
    fun hL ⟨n, hn, hbad⟩ => exec_of_error ?_⟩
  · simp only [commandOf, fftFwdCommand, checkL, checkLength_badLength h, error_bind]
  · simp only [commandOf, fftFwdCommand, checkL, checkLength_capacity heven hmin hmax, error_bind]
  · have hnot : ¬ ∀ n < s.srcLen.toNat, isFinite (s.word (sampleOffset n)) = true := fun hall => by simp [hall n hn] at hbad
    simp only [commandOf, fftFwdCommand, checkL, checkLength_legal _ _ hL, ok_bind, checkSamples_eq, if_neg hnot, error_bind]

/-! ## The bins of a row (R170) -/

section
variable {harm : Nat → Word × Word} {A : Word} {K M : Nat}

@[simp] theorem includedBins_length : (includedBins harm A K).length = K := by simp [includedBins]

theorem allBins_length (hK : K ≤ M / 2) : (allBins (includedBins harm A K) M).length = M / 2 + 1 := by
  simp only [allBins, List.length_cons, List.length_append, includedBins_length, List.length_replicate]
  omega

/-- The bins of a row, by their numbers: those of harmonics 1 to K, and zeros (R170). -/
theorem allBins_getD (k : Nat) :
    (allBins (includedBins harm A K) M).getD k (posZero, posZero) =
      if 1 ≤ k ∧ k ≤ K then synthBin (mul32 A 0x3F000000#32) (harm k) else (posZero, posZero) := by
  cases k with
  | zero => rfl
  | succ j =>
    rw [allBins, List.getD_cons_succ]
    rcases Nat.lt_or_ge j K with hj | hj
    · rw [List.getD_append _ _ _ _ (by simpa using hj), if_pos ⟨by omega, hj⟩]
      simp [includedBins, hj]
    · rw [List.getD_append_right _ _ _ _ (by simpa using hj), if_neg (by omega)]
      simp only [List.getD_eq_getElem?_getD, List.getElem?_replicate]
      split <;> rfl

/-- The bins are determined by their numbers. -/
theorem eq_allBins {Y : List (Word × Word)} (hK : K ≤ M / 2) (hlen : Y.length = M / 2 + 1)
    (hY : ∀ k ≤ M / 2, Y.getD k (posZero, posZero) =
      if 1 ≤ k ∧ k ≤ K then synthBin (mul32 A 0x3F000000#32) (harm k) else (posZero, posZero)) :
    Y = allBins (includedBins harm A K) M := by
  refine List.ext_getElem (hlen.trans (allBins_length hK).symm) fun k hk hk' => ?_
  rw [← List.getD_eq_getElem _ (posZero, posZero) hk, ← List.getD_eq_getElem _ (posZero, posZero) hk', hY k (by omega),
    allBins_getD]

theorem includedBins_subset_allBins {y : Word × Word} (h : y ∈ includedBins harm A K) :
    y ∈ allBins (includedBins harm A K) M :=
  List.mem_cons_of_mem _ (List.mem_append_left _ h)

/-- Under correct rounding, bins that are all zero give a row of +0 (R152, R170). -/
theorem irfft_of_zero_bins {cfg : Config} {Y : List (Word × Word)} {n : Nat} (hcfg : cfg.xform = .correctlyRounded)
    (hY : ∀ y ∈ Y, scaled y.1 = 0 ∧ scaled y.2 = 0) (hn : n < M) : (irfft cfg Y M).getD n 0#32 = 0x00000000#32 := by
  have hnone : nonzeroBins Y = [] := by
    rw [nonzeroBins, List.filter_eq_nil_iff]
    intro y hy
    obtain ⟨h1, h2⟩ := hY y.1 (List.fst_mem_of_mem_zipIdx hy)
    simp [h1, h2]
  rw [irfft_getD_rounded hn hcfg, hnone]
  rfl

/-- Included bins that are zero leave no other. -/
theorem allBins_zero (h : ∀ y ∈ includedBins harm A K, scaled y.1 = 0 ∧ scaled y.2 = 0) :
    ∀ y ∈ allBins (includedBins harm A K) M, scaled y.1 = 0 ∧ scaled y.2 = 0 := by
  intro y hy
  rcases List.mem_cons.mp hy with rfl | hy
  · decide
  · rcases List.mem_append.mp hy with hy | hy
    · exact h y hy
    · rw [(List.mem_replicate.mp hy).2]
      decide

/-- The bin of a harmonic that is zero is zero, for a finite amplitude (R157). -/
theorem synthBin_zero {a : Word} (ha : isFinite a = true) :
    let y := synthBin a (posZero, posZero)
    finiteBin y ∧ scaled y.1 = 0 ∧ scaled y.2 = 0 := by
  have hmul {z : Word} (hz : isFinite z = true) (hz0 : scaled z = 0) :
      isFinite (mul32 a z) = true ∧ scaled (mul32 a z) = 0 := by
    rw [mul32_zero ha hz (.inr hz0)]
    split <;> decide
  have hre := hmul (z := neg32 posZero) (by decide) (by decide)
  have him := hmul (z := posZero) (by decide) (by decide)
  exact ⟨⟨hre.1, him.1⟩, hre.2, him.2⟩

end

/-! ## SYNTH (R170) -/

section
variable {s : State} {b : BitVec 5}

/-- What SYNTH leaves, when its included bins are finite (R170). -/
theorem exec_synth_of_finite (hb : b.toNat < 24) (hM : legalLength s.tableSize.toNat s.cfg.tableSizeMax)
    (hA : isFinite s.amplitude = true) (hc : isNaN s.cutoff = false)
    (hbins : ∀ y ∈ includedBins s.harm s.amplitude (gateCount s.cutoff s.tableSize.toNat), finiteBin y) :
    exec (.synth b) s =
      .next ((s.storeRow s.tableSize.toNat b.toNat
        (irfft s.cfg (allBins (includedBins s.harm s.amplitude (gateCount s.cutoff s.tableSize.toNat)) s.tableSize.toNat)
          s.tableSize.toNat) (gateCount s.cutoff s.tableSize.toNat)).complete .ok) := by
  refine exec_of_ok ((synthCommand_of_checks hb hM hA hc).trans ?_)
  rw [synthRow_of_finite hbins]
  rfl

/-- A word of a stored row (R14, R170). -/
theorem word_storeRow {M m K p : Nat} {row : List Word} (hp : p < row.length) :
    ((s.storeRow M m row K).complete .ok).word (rowOffset M m (extra + p)) = row.getD p 0#32 := by
  rw [← s.word_writeRam_inside (rowOffset M m extra) row p hp,
    show rowOffset M m extra + 4 * p = rowOffset M m (extra + p) by simp only [rowOffset, tabOffset]; omega]
  rfl

end

/-- Settles O33: the bins are `allBins`, the stored row reads back, and the frame is that of its write. -/
theorem synthResult : Obligations.SynthResult := by
  rintro b s M K Y hb rfl hM hA hc rfl hlen hbins hfin
  have hY : Y = allBins (includedBins s.harm s.amplitude (gateCount s.cutoff s.tableSize.toNat)) s.tableSize.toNat :=
    eq_allBins (gateCount_le _ _) hlen hbins
  rw [hY] at hfin
  refine ⟨_, exec_synth_of_finite hb hM hA hc fun y hy => hfin y (includedBins_subset_allBins hy), ?_, fun p hp => ?_,
    fun a ha => ?_⟩
  · simp [complete_ok_eq, State.storeRow, State.writeRam]
  · rw [hY]
    exact word_storeRow (by rwa [irfft_length])
  · rw [byte_complete, byte_storeRow]
    simp only [outsideRanges, List.mem_singleton, forall_eq, irfft_length, extra_eq]
    simp only [rowOffset, tabOffset] at ha ⊢
    omega

/-- Settles O34: the checks of the band, the table size, the amplitude and the cutoff, in their order. -/
theorem synthErrors : Obligations.SynthErrors := by
  refine fun b s => ⟨fun hb => exec_of_error ?_, fun hb h => exec_of_error ?_,
    fun hb heven hmin hmax => exec_of_error ?_, fun hb hM h => exec_of_error ?_⟩
  · simp only [commandOf, synthCommand, checkBand_illegal hb, error_bind]
  · simp only [commandOf, synthCommand, checkBand_legal hb, checkM, checkLength_badLength h, ok_bind, error_bind]
  · simp only [commandOf, synthCommand, checkBand_legal hb, checkM, checkLength_capacity heven hmin hmax, ok_bind,
      error_bind]
  · simp only [commandOf, synthCommand, checkBand_legal hb, checkM, checkLength_legal _ _ hM, ok_bind]
    cases hA : isFinite s.amplitude with
    | false => rw [checkA_not_finite hA, error_bind]
    | true => rw [checkA_finite hA, ok_bind, checkC_nan (h.resolve_left (by simp [hA])), error_bind]

/-- Settles O35: the admitted bins, if any, are those of harmonics above the spectrum, which are zero. -/
theorem silentSynthRowIsZero : Obligations.SilentSynthRowIsZero := by
  rintro b s M hb rfl hM hA hc hcfg hsilent
  have hbin : ∀ y ∈ includedBins s.harm s.amplitude (gateCount s.cutoff s.tableSize.toNat),
      finiteBin y ∧ scaled y.1 = 0 ∧ scaled y.2 = 0 := by
    intro y hy
    obtain ⟨k, hk, hK, rfl⟩ := mem_includedBins.mp hy
    have hharm : s.harm k = (posZero, posZero) := if_neg (by omega)
    rw [hharm]
    exact synthBin_zero (isFinite_mul32_half hA)
  refine ⟨_, exec_synth_of_finite hb hM hA hc fun y hy => (hbin y hy).1, rfl, fun p hp => ?_⟩
  exact (word_storeRow (by rwa [irfft_length])).trans
    (irfft_of_zero_bins hcfg (allBins_zero fun y hy => (hbin y hy).2) hp)

/-! ## BUILD and BUILD_AUDIO (R205, R210) -/

/-- Settles O44: the bin stops its row, and a build by the row of its band; band 0 admits what any band does. -/
theorem buildFailsAsAWhole : Obligations.BuildFailsAsAWhole := by
  rintro s M k A rfl hM hA rfl hk bad rateOk
  have not_finite {h : Word × Word} (hbad : bad h) : ¬ finiteBin (synthBin (mul32 s.amplitude 0x3F000000#32) h) := by
    rintro ⟨hre, him⟩
    rcases hbad with h | h
    · exact nomatch hre.symm.trans h
    · exact nomatch him.symm.trans h
  have band0 {m : Nat} (hm : m < 24) (hR : isFinite s.refRate = true) (hR0 : 0 < scaled s.refRate) :
      gateCount (cut m s.tableSize.toNat s.refRate).1 s.tableSize.toNat ≤
        gateCount (cut 0 s.tableSize.toNat s.refRate).1 s.tableSize.toNat :=
    gateCount_cut_le (by omega) s.tableSize.isLt hR hR0 (Nat.zero_le m) hm
  refine ⟨fun b hb hc hK hbad => exec_of_error ?_,
    fun m hm ⟨hR, hR0⟩ hK hbad => ⟨hK.trans (band0 hm hR hR0), exec_of_error ?_⟩,
    fun m hm ⟨hR, hR0⟩ hK hL hxs hbad => ⟨hK.trans (band0 hm hR hR0), exec_of_error ?_⟩⟩
  · refine (synthCommand_of_checks hb hM hA hc).trans ?_
    rw [synthRow_of_not_finite hk hK (not_finite hbad)]
    rfl
  · refine (buildCommand_of_checks hM hR hR0 hA).trans ?_
    rw [buildRows_of_not_finite hm hk hK (not_finite hbad)]
    rfl
  · refine (buildAudioCommand_of_checks hL hM hR hR0 hA hxs rfl).trans ?_
    rw [buildRows_of_not_finite (harm := harmOf _) hm hk hK (not_finite hbad)]
    rfl

/-- A completion before a build is stored is not told from the one after it (R243). -/
theorem complete_storeTables_complete (s : State) (M : Nat) (R : Word) (rows : List (List Word)) :
    ((s.complete .ok).storeTables M R rows).complete .ok = (s.storeTables M R rows).complete .ok := rfl

/-- Settles O47: BUILD reads the spectrum that FFT_FWD has stored, and so builds the rows of BUILD_AUDIO. -/
theorem buildAudioIsForwardThenBuild : Obligations.BuildAudioIsForwardThenBuild := by
  rintro s L M H rfl rfl hL hM hR hR0 hA hxs hH hbins
  have hlen : H.length = s.srcLen.toNat / 2 + 1 := by rw [hH, forwardProfile_length, words_length]
  have hlt : H.length < 2 ^ 32 := by omega
  obtain ⟨rows, hrows⟩ : ∃ rows, buildRows s.cfg (harmOf H) s.amplitude s.refRate s.tableSize.toNat = .ok rows := by
    refine buildRows_of_finite fun m hm y hy => ?_
    obtain ⟨k, hk, hK, rfl⟩ := mem_includedBins.mp hy
    exact hbins m hm k hk hK
  have hfwd : exec .fftFwd s = .next ((s.storeProfile H).complete .ok) :=
    hH ▸ exec_of_ok (fftFwdCommand_of_checks hL hxs)
  have hharm : ((s.storeProfile H).complete .ok).harm = harmOf H := harm_storeProfile hlt
  have hbuild : buildCommand ((s.storeProfile H).complete .ok) =
      .ok (((s.storeProfile H).complete .ok).storeTables s.tableSize.toNat s.refRate rows) := by
    refine (buildCommand_of_checks (s := (s.storeProfile H).complete .ok) hM hR hR0 hA).trans ?_
    rw [hharm]
    exact congrArg (Except.map _) hrows
  have haudio : buildAudioCommand s = .ok ((s.storeProfile H).storeTables s.tableSize.toNat s.refRate rows) := by
    rw [buildAudioCommand_of_checks hL hM hR hR0 hA hxs hH, hrows]
    rfl
  refine ⟨_, _, hfwd, exec_of_ok hbuild, ?_, ?_, rfl, rfl⟩
  · rw [complete_storeTables_complete]
    exact exec_of_ok haudio
  · exact (Nat.mod_eq_of_lt hlt).trans hlen

end Sys2Proof.Machine

/-! # CUTOFF and the padding of rows

What CUTOFF, PAD_ROW and PAD_ALL leave and the errors they raise (R190 to R203); NOP (R220). -/

namespace Sys2Proof.Machine

/-- Settles O49: NOP writes nothing before its completion. -/
theorem nopOnlyCompletes : Obligations.NopOnlyCompletes := fun s => exec_of_ok (i := .nop) (u := s) rfl

/-! ## CUTOFF (R192 to R195) -/

section
variable {s : State} {b : BitVec 5}

/-- What CUTOFF writes once its checks have passed: the converse of `cutoffCommand_ok` (R195). -/
theorem cutoffCommand_of_checks (hb : b.toNat < 24) (hM : legalLength s.tableSize.toNat s.cfg.tableSizeMax)
    (hR : isFinite s.refRate = true) (hR0 : 0 < scaled s.refRate) :
    cutoffCommand b s = .ok { s with
      result0 := (cut b.toNat s.tableSize.toNat s.refRate).1
      result1 := (cut b.toNat s.tableSize.toNat s.refRate).2
      resultIndex := BitVec.ofNat 32
        (gateCount (cut b.toNat s.tableSize.toNat s.refRate).1 s.tableSize.toNat) } := by
  simp only [cutoffCommand, checkBand_legal hb, checkM, checkLength_legal _ _ hM, checkR_legal hR hR0, ok_bind]

theorem checkR_illegal (h : isFinite s.refRate = false ∨ scaled s.refRate ≤ 0) : checkR s = .error .badOperand :=
  if_neg fun ⟨hfin, hpos⟩ => h.elim (fun h => nomatch hfin.symm.trans h) (not_le.mpr hpos)

end

/-- Settles O36: the quotients of R192 are those of `cut`. -/
theorem cutoffResult : Obligations.CutoffResult := by
  rintro b s M c hb rfl hM hR hR0 rfl
  exact exec_of_ok (i := .cutoff b) (cutoffCommand_of_checks hb hM hR hR0)

/-- Settles O37: the checks of the band, the table size and the reference rate, in their order. -/
theorem cutoffErrors : Obligations.CutoffErrors := by
  refine fun b s => ⟨fun hb => exec_of_error ?_, fun hb h => exec_of_error ?_,
    fun hb heven hmin hmax => exec_of_error ?_, fun hb hM h => exec_of_error ?_⟩
  · simp only [commandOf, cutoffCommand, checkBand_illegal hb, error_bind]
  · simp only [commandOf, cutoffCommand, checkBand_legal hb, checkM, checkLength_badLength h, ok_bind, error_bind]
  · simp only [commandOf, cutoffCommand, checkBand_legal hb, checkM, checkLength_capacity heven hmin hmax, ok_bind,
      error_bind]
  · simp only [commandOf, cutoffCommand, checkBand_legal hb, checkM, checkLength_legal _ _ hM, checkR_illegal h, ok_bind,
      error_bind]

/-- Settles O38: cutoffs do not rise with the band, and with them the gate counts, which a word holds. -/
theorem cutoffsAreMonotone : Obligations.CutoffsAreMonotone := by
  intro b b' s hbb hb' hM hR hR0
  have hM0 : 0 < s.tableSize.toNat := by omega
  refine ⟨_, _, exec_of_ok (cutoffCommand_of_checks (by omega) hM hR hR0),
    exec_of_ok (cutoffCommand_of_checks hb' hM hR hR0), scaled_cut_le hM0 s.tableSize.isLt hR hR0 hbb hb', ?_⟩
  have hword (c : Word) : (BitVec.ofNat 32 (gateCount c s.tableSize.toNat)).toNat = gateCount c s.tableSize.toNat := by
    have := gateCount_le c s.tableSize.toNat
    exact Nat.mod_eq_of_lt (by omega)
  simp only [State.complete_resultIndex, hword]
  exact gateCount_cut_le hM0 s.tableSize.isLt hR hR0 hbb hb'

/-! ## The words of a row (R14) -/

theorem rowOffset_add (M m q j : Nat) : rowOffset M m q + 4 * j = rowOffset M m (q + j) := by
  simp only [rowOffset, tabOffset]
  omega

section
variable {s t : State} {M m q : Nat} {ws : List Word}

theorem rowWord_writeRam_inside {j : Nat} (hj : j < ws.length) :
    (s.writeRam (rowOffset M m q) ws).rowWord M m (q + j) = ws.getD j 0#32 := by
  rw [State.rowWord, ← rowOffset_add, State.word_writeRam_inside _ _ _ _ hj]

theorem rowWord_writeRam_outside {m' q' : Nat}
    (h : rowBase M m' + q' < rowBase M m + q ∨ rowBase M m + q + ws.length ≤ rowBase M m' + q') :
    (s.writeRam (rowOffset M m q) ws).rowWord M m' q' = s.rowWord M m' q' := by
  refine State.word_writeRam_outside _ _ _ _ ?_
  simp only [rowOffset, tabOffset]
  omega

theorem words_rowOffset_getD {n j : Nat} (hj : j < n) :
    (s.words (rowOffset M m q) n).getD j 0#32 = s.rowWord M m (q + j) := by
  rw [words_getD _ _ _ _ hj, rowOffset_add, State.rowWord]

/-- Words that read alike make one list. -/
theorem words_congr {a n : Nat} (h : ∀ j < n, s.word (a + 4 * j) = t.word (a + 4 * j)) : s.words a n = t.words a n :=
  List.map_congr_left fun j hj => h j (List.mem_range.mp hj)

/-- A word is read from the memory and the power-on contents alone. -/
theorem word_congr_mem (hmem : s.mem = t.mem) (hepoch : s.ramEpoch = t.ramEpoch) (a : Nat) : s.word a = t.word a := by
  simp only [State.word, State.byte, hmem, hepoch]

/-! ## One row padded (R200) -/

/-- The word of a row, guard words counted, that word `q` of the padded row repeats (R200, R201). -/
def padSource (M q : Nat) : Nat := if q < extra then M + q else if q < extra + M then q else q - M

theorem padSource_playable {p : Nat} (hp : p < M) : padSource M (extra + p) = extra + p := by
  rw [padSource, if_neg (by omega), if_pos (by omega)]

/-- The words of a row once it is padded: playable words stay, and guard words are copied from `s` (R200). -/
theorem rowWord_padRow_same (hq : q < M + 2 * extra) :
    (t.padRow s M m).rowWord M m q =
      if extra ≤ q ∧ q < extra + M then t.rowWord M m q else s.rowWord M m (padSource M q) := by
  have hlen (p : Nat) : (s.words (rowOffset M m p) extra).length = extra := words_length ..
  rw [State.padRow, padSource]
  rcases Nat.lt_or_ge q extra with hbefore | hplay
  · have hcopy := rowWord_writeRam_inside (s := t) (M := M) (m := m) (q := 0) ((hlen M).symm ▸ hbefore)
    rw [Nat.zero_add] at hcopy
    rw [if_neg (by omega), if_pos hbefore, rowWord_writeRam_outside (.inl (by omega)), hcopy,
      words_rowOffset_getD hbefore]
  · rcases Nat.lt_or_ge q (extra + M) with hin | hafter
    · rw [if_pos ⟨hplay, hin⟩, rowWord_writeRam_outside (.inl (by omega)),
        rowWord_writeRam_outside (.inr (by rw [hlen]; omega))]
    · obtain ⟨j, rfl⟩ := Nat.exists_eq_add_of_le hafter
      have hj : j < extra := by omega
      rw [if_neg (by omega), if_neg (by omega), if_neg (by omega), Nat.add_comm extra M,
        rowWord_writeRam_inside ((hlen extra).symm ▸ hj), words_rowOffset_getD hj,
        show M + extra + j - M = extra + j by omega]

/-- Rows do not overlap (R14). -/
theorem rowBase_add_le_of_lt {m' : Nat} (h : m < m') : rowBase M m + (M + 2 * extra) ≤ rowBase M m' := by
  calc rowBase M m + (M + 2 * extra) = (m + 1) * (M + 2 * extra) := by rw [rowBase]; ring
    _ ≤ m' * (M + 2 * extra) := Nat.mul_le_mul_right _ h

/-- Padding a row leaves every other row (R202). -/
theorem rowWord_padRow_other {m' : Nat} (hne : m' ≠ m) (hq : q < M + 2 * extra) :
    (t.padRow s M m).rowWord M m' q = t.rowWord M m' q := by
  have hlen (p : Nat) : (s.words (rowOffset M m p) extra).length = extra := words_length ..
  rcases Nat.lt_or_gt_of_ne hne with hlt | hgt
  · have hrows := rowBase_add_le_of_lt (M := M) hlt
    rw [State.padRow, rowWord_writeRam_outside (.inl (by omega)), rowWord_writeRam_outside (.inl (by omega))]
  · have hrows := rowBase_add_le_of_lt (M := M) hgt
    rw [State.padRow, rowWord_writeRam_outside (.inr (by rw [hlen]; omega)),
      rowWord_writeRam_outside (.inr (by rw [hlen]; omega))]

/-- A row padded from its own words (R200). -/
theorem rowWord_padRow_self (hq : q < M + 2 * extra) (hrow : t.rowWord M m q = s.rowWord M m q) :
    (t.padRow s M m).rowWord M m q = s.rowWord M m (padSource M q) := by
  rw [rowWord_padRow_same hq]
  split
  · next hplay =>
    obtain ⟨p, rfl⟩ := Nat.exists_eq_add_of_le hplay.1
    rw [padSource_playable (by omega), hrow]
  · rfl

/-- A row that repeats the words at `padSource` is padded, and its playable words are as they were (R201, R202). -/
theorem rowPadded_of_padSource (hM : extra ≤ M)
    (h : ∀ q < M + 2 * extra, t.rowWord M m q = s.rowWord M m (padSource M q)) :
    t.rowPadded M m ∧ ∀ p < M, t.rowWord M m (extra + p) = s.rowWord M m (extra + p) := by
  have hplay (p : Nat) (hp : p < M) : t.rowWord M m (extra + p) = s.rowWord M m (extra + p) := by
    rw [h _ (by omega), padSource_playable hp]
  refine ⟨fun k hk => ⟨?_, ?_⟩, hplay⟩
  · rw [h _ (by omega), hplay k (by omega), padSource, if_neg (by omega), if_neg (by omega),
      show extra + M + k - M = extra + k by omega]
  · rw [h _ (by omega), show extra + M - 1 - k = extra + (M - 1 - k) by omega, hplay _ (by omega), padSource,
      if_pos (by omega), show M + (extra - 1 - k) = extra + (M - 1 - k) by omega]

end

/-! ## PAD_ROW (R200) -/

section
variable {s : State} {b : BitVec 5}

theorem padRowCommand_of_checks (hb : b.toNat < 24) (hM : legalLength s.tableSize.toNat s.cfg.tableSizeMax) :
    padRowCommand b s = .ok { s.padRow s s.tableSize.toNat b.toNat with tablesValid := false } := by
  simp only [padRowCommand, checkBand_legal hb, checkM, checkLength_legal _ _ hM, ok_bind]

end

/-- The guard words of row `m`, by the offsets of their ends (R14). -/
theorem outsideRanges_guardRanges {M m a : Nat} (hbefore : a < rowOffset M m 0 ∨ rowOffset M m 4 ≤ a)
    (hafter : a < rowOffset M m (4 + M) ∨ rowOffset M m (8 + M) ≤ a) : outsideRanges (guardRanges M m) a := by
  simp only [outsideRanges, guardRanges, List.mem_cons, List.not_mem_nil, or_false, forall_eq_or_imp, forall_eq,
    rowOffset_add, extra_eq]
  rw [Nat.add_comm M 4, Nat.zero_add, show 4 + M + 4 = 8 + M by omega]
  exact ⟨hbefore, hafter⟩

/-- Settles O39: the words at `padSource`, and the frame of the guard words. -/
theorem padRowResult : Obligations.PadRowResult := by
  rintro b s M hb rfl hM
  obtain ⟨hpadded, hplay⟩ := rowPadded_of_padSource (s := s) (m := b.toNat) hM.2.1
    fun q hq => rowWord_padRow_self hq rfl
  refine ⟨_, exec_of_ok (padRowCommand_of_checks hb hM), rfl, fun k hk => ?_, fun a hbefore hafter => ?_⟩
  · obtain ⟨hlast, hfirst⟩ := hpadded k hk
    refine ⟨hlast.trans (hplay k (by omega)), hfirst.trans ?_⟩
    rw [extra_eq, show 4 + s.tableSize.toNat - 1 - k = 4 + (s.tableSize.toNat - 1 - k) by omega]
    exact hplay _ (by omega)
  · exact byte_padRow (outsideRanges_guardRanges hbefore hafter)

/-- Settles O40: the checks of the band and the table size, in their order. -/
theorem padErrors : Obligations.PadErrors := by
  refine fun b s => ⟨fun hb => exec_of_error ?_, fun hb h => exec_of_error ?_,
    fun hb heven hmin hmax => exec_of_error ?_, fun h => exec_of_error ?_, fun heven hmin hmax => exec_of_error ?_⟩
  · simp only [commandOf, padRowCommand, checkBand_illegal hb, error_bind]
  · simp only [commandOf, padRowCommand, checkBand_legal hb, checkM, checkLength_badLength h, ok_bind, error_bind]
  · simp only [commandOf, padRowCommand, checkBand_legal hb, checkM, checkLength_capacity heven hmin hmax, ok_bind,
      error_bind]
  · simp only [commandOf, padAllCommand, checkM, checkLength_badLength h, error_bind]
  · simp only [commandOf, padAllCommand, checkM, checkLength_capacity heven hmin hmax, error_bind]

/-! ### Padding twice -/

section
variable {a : Nat} {ws : List Word} (p : Nat → Prop) [DecidablePred p]

/-- A test of offsets that holds on a block keeps its cells. -/
theorem filter_blockCells_of_all (h : ∀ k, a ≤ k → k < a + 4 * ws.length → p k) :
    (blockCells a ws).filter (fun c => p c.1) = blockCells a ws := by
  refine List.filter_eq_self.mpr fun c hc => decide_eq_true ?_
  obtain ⟨hlo, hhi⟩ := (blockCells_fst ws a).2 c.1 (List.mem_map_of_mem hc)
  exact h c.1 hlo hhi

/-- And one that fails on it keeps none. -/
theorem filter_blockCells_of_none (h : ∀ k, a ≤ k → k < a + 4 * ws.length → ¬ p k) :
    (blockCells a ws).filter (fun c => p c.1) = [] := by
  refine List.filter_eq_nil_iff.mpr fun c hc => ?_
  obtain ⟨hlo, hhi⟩ := (blockCells_fst ws a).2 c.1 (List.mem_map_of_mem hc)
  simpa using h c.1 hlo hhi

end

/-- Two blocks that do not overlap can be written in either order. -/
theorem Memory.writeWords_comm (m : Memory) {a b : Nat} {ws vs : List Word} (h : a + 4 * ws.length ≤ b) :
    (m.writeWords b vs).writeWords a ws = (m.writeWords a ws).writeWords b vs := by
  have hbelow := filter_blockCells_of_none (a := b) (ws := vs) (· < a) (by omega)
  have habove := filter_blockCells_of_all (a := b) (ws := vs) (a + 4 * ws.length ≤ ·) (by omega)
  have hbelow' := filter_blockCells_of_all (a := a) (ws := ws) (· < b) (by omega)
  have habove' := filter_blockCells_of_none (a := a) (ws := ws) (b + 4 * vs.length ≤ ·) (by omega)
  have hnone : m.cells.filter (fun c => decide (c.1 < a) && decide (b + 4 * vs.length ≤ c.1)) = [] :=
    List.filter_eq_nil_iff.mpr fun c _ => by simp; omega
  have hlow : m.cells.filter (fun c => decide (c.1 < a) && decide (c.1 < b)) = m.cells.filter (fun c => c.1 < a) :=
    List.filter_congr fun c _ => by simp; omega
  have hhigh : m.cells.filter (fun c => decide (a + 4 * ws.length ≤ c.1) && decide (b + 4 * vs.length ≤ c.1)) =
      m.cells.filter (fun c => b + 4 * vs.length ≤ c.1) :=
    List.filter_congr fun c _ => by simp; omega
  simp only [Memory.writeWords, List.filter_append, List.filter_filter, hbelow, habove, hbelow', habove', hnone, hlow,
    hhigh, Bool.and_comm (decide (b + 4 * vs.length ≤ _)), Bool.and_comm (decide (_ < b)), List.append_assoc,
    List.append_nil, List.nil_append]

/-- A memory with the row padded is left by padding the row again: the copied words are the same, and so are the guard
words they go to. -/
theorem padRow_eq_self {s v : State} {M m : Nat} (hM : extra ≤ M) (hmem : v.mem = (s.padRow s M m).mem)
    (hepoch : v.ramEpoch = s.ramEpoch) : v.padRow v M m = v := by
  have hwords (q : Nat) (hlo : extra ≤ q) (hhi : q ≤ M) :
      v.words (rowOffset M m q) extra = s.words (rowOffset M m q) extra := by
    refine words_congr fun j hj => ?_
    have hpadded : (s.padRow s M m).rowWord M m (q + j) = s.rowWord M m (q + j) :=
      (rowWord_padRow_same (by omega)).trans (if_pos (by omega))
    rw [rowOffset_add, word_congr_mem (t := s.padRow s M m) hmem hepoch]
    exact hpadded
  have hdisjoint : rowOffset M m 0 + 4 * (s.words (rowOffset M m M) extra).length ≤ rowOffset M m (M + extra) := by
    rw [words_length, rowOffset_add]
    simp only [rowOffset, tabOffset]
    omega
  have hsame : (v.padRow v M m).mem = v.mem := by
    simp only [State.padRow, State.writeRam, hmem, hwords M hM le_rfl, hwords extra le_rfl hM,
      Memory.writeWords_comm _ hdisjoint, Memory.writeWords_twice]
  calc v.padRow v M m = { v with mem := (v.padRow v M m).mem } := rfl
    _ = v := by rw [hsame]

/-- The checks of PAD_ROW read nothing that completion writes (R242, R243). -/
theorem padRowCommand_complete_of_error {b : BitVec 5} {s : State} {code : ErrCode}
    (h : padRowCommand b s = .error code) : padRowCommand b (s.complete code) = .error code := by
  have hcheckM : checkM (s.complete code) = checkM s := rfl
  simp only [padRowCommand, hcheckM] at h ⊢
  cases hm : checkBand b with
  | error e => rwa [hm] at h
  | ok m =>
    rw [hm, ok_bind] at h
    cases hM : checkM s with
    | error e => rwa [hM] at h
    | ok M =>
      rw [hM, ok_bind] at h
      cases h

/-- Settles O41: a PAD_ROW that raises a code raises it again, and one that pads finds its row padded. -/
theorem padRowTwiceIsOnce : Obligations.PadRowTwiceIsOnce := by
  intro b s t h
  rw [exec_eq_finish] at h
  rcases finish_cases _ _ _ h with ⟨u, hu, rfl⟩ | ⟨code, hcode, rfl⟩
  · obtain ⟨hb, hM, rfl⟩ := padRowCommand_ok hu
    obtain ⟨v, hv⟩ : ∃ v,
        State.complete { s.padRow s s.tableSize.toNat b.toNat with tablesValid := false } .ok = v := ⟨_, rfl⟩
    have hsize : v.tableSize = s.tableSize := hv ▸ rfl
    have hcfg : v.cfg = s.cfg := hv ▸ rfl
    have hpadded : v.padRow v v.tableSize.toNat b.toNat = v := by
      rw [hsize]
      exact padRow_eq_self (s := s) hM.2.1 (hv ▸ rfl) (hv ▸ rfl)
    have hagain := padRowCommand_of_checks (s := v) hb (by rwa [hsize, hcfg])
    rw [hpadded] at hagain
    rw [hv, exec_of_ok (i := .padRow b) hagain, ← hv]
    rfl
  · rw [exec_of_error (i := .padRow b) (padRowCommand_complete_of_error hcode),
      complete_eq_completedWith (commandOf_raises _ _ _ hcode)]
    rfl

/-! ## PAD_ALL (R203) -/

/-- The first `n` rows padded from `s`: PAD_ALL pads all of them so. -/
def State.padRows (s : State) (M n : Nat) : State := (List.range n).foldl (fun t m => t.padRow s M m) s

theorem padRows_succ (s : State) (M n : Nat) : s.padRows M (n + 1) = (s.padRows M n).padRow s M n := by
  rw [State.padRows, List.range_succ, List.foldl_concat]
  rfl

theorem padAllCommand_of_checks {s : State} (hM : legalLength s.tableSize.toNat s.cfg.tableSizeMax) :
    padAllCommand s = .ok { s.padRows s.tableSize.toNat numBands with tablesValid := false } := by
  simp only [padAllCommand, checkM, checkLength_legal _ _ hM, ok_bind, State.padRows]

/-- The words of the rows once the first `n` are padded (R203). -/
theorem rowWord_padRows {s : State} {M m q : Nat} (hq : q < M + 2 * extra) (n : Nat) :
    (s.padRows M n).rowWord M m q = s.rowWord M m (if m < n then padSource M q else q) := by
  induction n with
  | zero => rfl
  | succ n ih =>
    rw [padRows_succ]
    rcases eq_or_ne m n with rfl | hne
    · rw [if_neg (Nat.lt_irrefl m)] at ih
      rw [if_pos (Nat.lt_succ_self m), rowWord_padRow_self hq ih]
    · rw [rowWord_padRow_other hne hq, ih]
      simp only [show m < n + 1 ↔ m < n by omega]

/-- Bytes outside all guard words are left (R202). -/
theorem byte_padRows {s : State} {M n a : Nat} (h : ∀ m < n, outsideRanges (guardRanges M m) a) :
    (s.padRows M n).byte a = s.byte a := by
  refine byte_foldl_padRow fun r hr => ?_
  obtain ⟨m, hm, hr⟩ := List.mem_flatMap.mp hr
  exact h m (List.mem_range.mp hm) r hr

/-- Padding rows writes memory only. -/
theorem padRows_changes (s : State) (M n : Nat) : s.padRows M n = { s with mem := (s.padRows M n).mem } :=
  foldl_padRow_eq s s M (List.range n)

/-- Settles O42: every row is padded from its own words, and the frame is that of all guard words. -/
theorem padAllResult : Obligations.PadAllResult := by
  rintro s M rfl hM
  obtain ⟨u, hu⟩ : ∃ u, s.padRows s.tableSize.toNat numBands = u := ⟨_, rfl⟩
  have hchanges := padRows_changes s s.tableSize.toNat numBands
  have hcommand := padAllCommand_of_checks hM
  have hrow (m q : Nat) (hm : m < 24) (hq : q < s.tableSize.toNat + 2 * extra) :
      u.rowWord s.tableSize.toNat m q = s.rowWord s.tableSize.toNat m (padSource s.tableSize.toNat q) := by
    rw [← hu, rowWord_padRows hq, numBands_eq, if_pos hm]
  have hframe {a : Nat} (h : ∀ m < 24, outsideRanges (guardRanges s.tableSize.toNat m) a) : u.byte a = s.byte a :=
    hu ▸ byte_padRows h
  rw [hu] at hchanges hcommand
  refine ⟨_, exec_of_ok (i := .padAll) hcommand, ?_, fun m hm => ?_, fun a ha => ?_⟩
  · rw [hchanges]
    rfl
  · exact rowPadded_of_padSource (t := u) hM.2.1 fun q hq => hrow m q hm hq
  · refine hframe fun m hm => ?_
    obtain ⟨hbefore, hafter⟩ := ha m hm
    exact outsideRanges_guardRanges hbefore hafter

end Sys2Proof.Machine

/-! # Builds

What BUILD leaves, that BUILD and BUILD_AUDIO depend on their operands alone, and the errors they raise (R204 to R210). -/

namespace Sys2Proof.Machine

/-! ## The rows of a build (R205) -/

section
variable {cfg : Config} {harm harm' : Nat → Word × Word} {A R : Word} {M : Nat} {rows : List (List Word)}

/-- The row of each band is the inverse transform of the bins its cutoff admits (R204). -/
theorem buildRows_getElem (h : buildRows cfg harm A R M = .ok rows) {m : Nat} (hm : m < rows.length) :
    rows[m] = irfft cfg (allBins (includedBins harm A (gateCount (cut m M R).1 M)) M) M := by
  have hband := (mapM_ok_iff _ _ _).mp h
  have hrow := hband.get (hband.length_eq ▸ hm) hm
  obtain ⟨⟨row, K⟩, hsynth, hret⟩ := (bind_eq_ok_iff _ _ _).mp hrow
  obtain ⟨rfl, rfl, -⟩ := synthRow_ok _ _ _ _ _ _ _ hsynth
  injection hret with hret
  simpa using hret.symm

/-- Rows are made from harmonics 1 and up (R170, R207). -/
theorem buildRows_congr (h : ∀ k, 1 ≤ k → harm k = harm' k) :
    buildRows cfg harm A R M = buildRows cfg harm' A R M := by
  have hbins (K : Nat) : includedBins harm A K = includedBins harm' A K :=
    List.map_congr_left fun j _ => by rw [h (j + 1) (by omega)]
  simp only [buildRows, synthRow_eq, hbins]

/-- The playable words of a padded row are the row (R14). -/
theorem paddedRow_getD_playable {row : List Word} (hM : extra ≤ row.length) {p : Nat} (hp : p < row.length) :
    (paddedRow row).getD (extra + p) 0#32 = row.getD p 0#32 := by
  have hdrop : (row.drop (row.length - extra)).length = extra := by rw [List.length_drop]; omega
  rw [paddedRow, List.getD_append _ _ _ _ (by rw [List.length_append]; omega),
    List.getD_append_right _ _ _ _ (by omega), hdrop, Nat.add_sub_cancel_left]

/-- Padding adds no other words. -/
theorem mem_paddedRow {row : List Word} {w : Word} : w ∈ paddedRow row ↔ w ∈ row := by
  simp only [paddedRow, List.mem_append]
  exact ⟨fun h => h.elim (fun h => h.elim List.mem_of_mem_drop id) List.mem_of_mem_take, fun h => .inl (.inr h)⟩

/-- The words of TAB that a build stores (R14, R205). -/
theorem word_storeTables {s : State} (hM : extra ≤ M) (hlen : rows.length = numBands)
    (hrows : ∀ row ∈ rows, row.length = M) {w : Nat} (hw : w < 24 * (M + 8)) :
    (s.storeTables M R rows).word (tabOffset w) = (rows.flatMap paddedRow).getD w 0#32 := by
  have hlt : w < (rows.flatMap paddedRow).length := by rwa [length_flatMap_paddedRow hM hrows, hlen]
  rw [← s.word_writeRam_inside (tabOffset 0) _ _ hlt, show tabOffset 0 + 4 * w = tabOffset w by simp only [tabOffset]]
  rfl

end

/-! ## BUILD (R205) -/

section
variable {s : State}

/-- A BUILD of finite bins stores rows that are the transforms of its bands. -/
theorem exec_build_of_finite (hM : legalLength s.tableSize.toNat s.cfg.tableSizeMax) (hR : isFinite s.refRate = true)
    (hR0 : 0 < scaled s.refRate) (hA : isFinite s.amplitude = true)
    (hbins : ∀ m < 24, ∀ k, 1 ≤ k → k ≤ gateCount (cut m s.tableSize.toNat s.refRate).1 s.tableSize.toNat →
      finiteBin (synthBin (mul32 s.amplitude 0x3F000000#32) (s.harm k))) :
    ∃ rows, buildRows s.cfg s.harm s.amplitude s.refRate s.tableSize.toNat = .ok rows ∧
      exec .build s = .next ((s.storeTables s.tableSize.toNat s.refRate rows).complete .ok) := by
  obtain ⟨rows, hrows⟩ := buildRows_of_finite (cfg := s.cfg) (harm := s.harm) (A := s.amplitude) (R := s.refRate)
    (M := s.tableSize.toNat) fun m hm y hy => by
      obtain ⟨k, hk, hK, rfl⟩ := mem_includedBins.mp hy
      exact hbins m hm k hk hK
  refine ⟨rows, hrows, exec_of_ok (i := .build) ((buildCommand_of_checks hM hR hR0 hA).trans ?_)⟩
  rw [hrows]
  rfl

end

/-- Settles O43: the built rows are padded, their playable words are the transforms, and the frame is that of the
tables. -/
theorem buildResult : Obligations.BuildResult := by
  rintro s M rfl hM hR hR0 hA hbins
  obtain ⟨rows, hrows, hexec⟩ := exec_build_of_finite hM hR hR0 hA hbins
  obtain ⟨hlen, hrow⟩ := buildRows_ok hrows
  refine ⟨_, hexec, rfl, fun m hm => ?_, fun a ha => ?_⟩
  · have hm' : m < rows.length := by rwa [hlen]
    refine ⟨rowPadded_storeTables (s := s) (R := s.refRate) hM.2.1 hrow m hm', fun p hp => ?_⟩
    have hlength : rows[m].length = s.tableSize.toNat := hrow _ (List.getElem_mem hm')
    have hword := rowWord_storeTables (s := s) (R := s.refRate) hM.2.1 hrow m (extra + p) hm' (by omega)
    rw [paddedRow_getD_playable (hlength.symm ▸ hM.2.1) (hlength.symm ▸ hp), buildRows_getElem hrows hm'] at hword
    exact hword
  · refine byte_storeTables (s := s) (R := s.refRate) hM.2.1 hrow ?_
    simp only [outsideRanges, List.mem_singleton, forall_eq, hlen, numBands_eq, extra_eq]
    simp only [tabOffset] at ha ⊢
    omega

/-- Settles O45: every included bin is that of a harmonic above the spectrum, which is zero, so every row is zero. -/
theorem silentBuildIsZero : Obligations.SilentBuildIsZero := by
  rintro s M rfl hM hR hR0 hA hcfg hsilent
  have hbin (k : Nat) (hk : 1 ≤ k) : finiteBin (synthBin (mul32 s.amplitude 0x3F000000#32) (s.harm k)) ∧
      scaled (synthBin (mul32 s.amplitude 0x3F000000#32) (s.harm k)).1 = 0 ∧
      scaled (synthBin (mul32 s.amplitude 0x3F000000#32) (s.harm k)).2 = 0 := by
    have hharm : s.harm k = (posZero, posZero) := if_neg (by omega)
    rw [hharm]
    exact synthBin_zero (isFinite_mul32_half hA)
  obtain ⟨rows, hrows, hexec⟩ := exec_build_of_finite hM hR hR0 hA fun m _ k hk _ => (hbin k hk).1
  obtain ⟨hlen, hrow⟩ := buildRows_ok hrows
  have hzero : ∀ w ∈ rows.flatMap paddedRow, w = 0#32 := by
    intro w hw
    obtain ⟨row, hmem, hw⟩ := List.mem_flatMap.mp hw
    obtain ⟨m, hm, rfl⟩ := List.getElem_of_mem hmem
    obtain ⟨p, hp, rfl⟩ := List.getElem_of_mem (mem_paddedRow.mp hw)
    rw [← List.getD_eq_getElem _ 0#32 hp, buildRows_getElem hrows hm]
    refine irfft_of_zero_bins hcfg (allBins_zero fun y hy => ?_) (by rwa [hrow _ hmem] at hp)
    obtain ⟨k, hk, -, rfl⟩ := mem_includedBins.mp hy
    exact (hbin k hk).2
  refine ⟨_, hexec, rfl, fun w hw => ?_⟩
  have hword := word_storeTables (s := s) (R := s.refRate) hM.2.1 hlen hrow hw
  have hlt : w < (rows.flatMap paddedRow).length := by rwa [length_flatMap_paddedRow hM.2.1 hrow, hlen]
  rw [List.getD_eq_getElem _ _ hlt, hzero _ (List.getElem_mem hlt)] at hword
  exact hword

/-! ## What a build depends on (R207) -/

/-- The rows BUILD stores, or the first error of its checks and bins (R205, R242). -/
def State.buildTables (s : State) : Except ErrCode (List (List Word)) := do
  let M ← checkM s
  let R ← checkR s
  let A ← checkA s
  buildRows s.cfg s.harm A R M

/-- The rows BUILD_AUDIO stores, or the first error of its checks and bins (R210, R242). -/
def State.buildAudioTables (s : State) : Except ErrCode (List (List Word)) := do
  let L ← checkL s
  let M ← checkM s
  let R ← checkR s
  let A ← checkA s
  let xs ← checkSamples s L
  buildRows s.cfg (harmOf (forwardProfile s.cfg xs)) A R M

theorem map_bind {ε α β γ : Type} (x : Except ε α) (f : α → Except ε β) (g : β → γ) :
    (x >>= f).map g = x >>= fun a => (f a).map g := by
  cases x <;> rfl

/-- The rest of a chain of checks matters at the value the first one answers. -/
theorem bind_congr_of_ok {ε α β : Type} {x : Except ε α} {f g : α → Except ε β} (h : ∀ a, x = .ok a → f a = g a) :
    (x >>= f) = (x >>= g) := by
  cases x with
  | error e => rfl
  | ok a => exact h a rfl

theorem bind_ok_eq_map {ε α β : Type} (x : Except ε α) (f : α → β) : (x >>= fun a => .ok (f a)) = x.map f := by
  cases x <;> rfl

theorem buildCommand_eq_map (s : State) :
    buildCommand s = s.buildTables.map (s.storeTables s.tableSize.toNat s.refRate) := by
  simp only [buildCommand, State.buildTables, map_bind, bind_ok_eq_map]
  refine bind_congr_of_ok fun M hM => bind_congr_of_ok fun R hR => ?_
  obtain ⟨rfl, -⟩ := checkLength_ok _ _ _ hM
  obtain ⟨rfl, -⟩ := checkR_ok _ _ hR
  rfl

theorem buildAudioCommand_eq_map (s : State) :
    buildAudioCommand s = s.buildAudioTables.map
      ((s.storeProfile (forwardProfile s.cfg (s.words (sampleOffset 0) s.srcLen.toNat))).storeTables
        s.tableSize.toNat s.refRate) := by
  simp only [buildAudioCommand, State.buildAudioTables, map_bind, bind_ok_eq_map]
  refine bind_congr_of_ok fun L hL => bind_congr_of_ok fun M hM => bind_congr_of_ok fun R hR =>
    bind_congr_of_ok fun A _ => bind_congr_of_ok fun xs hxs => ?_
  obtain ⟨rfl, -⟩ := checkLength_ok _ _ _ hL
  obtain ⟨rfl, -⟩ := checkLength_ok _ _ _ hM
  obtain ⟨rfl, -⟩ := checkR_ok _ _ hR
  obtain ⟨hwords, -⟩ := checkSamples_ok _ _ _ hxs
  rw [← hwords]

/-- Rows of the shape a build has: one of M words for each band, M at least EXTRA. -/
def TableRows (M : Nat) (rows : List (List Word)) : Prop :=
  extra ≤ M ∧ rows.length = numBands ∧ ∀ row ∈ rows, row.length = M

theorem buildTables_ok {s : State} {rows : List (List Word)} (h : s.buildTables = .ok rows) :
    TableRows s.tableSize.toNat rows := by
  simp only [State.buildTables, bind_eq_ok_iff] at h
  obtain ⟨M, hM, R, -, A, -, hrows⟩ := h
  obtain ⟨rfl, hlegal⟩ := checkLength_ok _ _ _ hM
  exact ⟨hlegal.2.1, buildRows_ok hrows⟩

theorem buildAudioTables_ok {s : State} {rows : List (List Word)} (h : s.buildAudioTables = .ok rows) :
    TableRows s.tableSize.toNat rows := by
  simp only [State.buildAudioTables, bind_eq_ok_iff] at h
  obtain ⟨L, -, M, hM, R, -, A, -, xs, -, hrows⟩ := h
  obtain ⟨rfl, hlegal⟩ := checkLength_ok _ _ _ hM
  exact ⟨hlegal.2.1, buildRows_ok hrows⟩

/-- The ends of two builds that R207 asks for: one code, and on success the same tables and HARM_COUNT. -/
def sameTables (M : Nat) (t t' : State) : Prop :=
  t.errCode = t'.errCode ∧ (t.errCode = .ok →
    t.harmCount = t'.harmCount ∧ ∀ w < 24 * (M + 8), t.word (tabOffset w) = t'.word (tabOffset w))

/-- Two commands that store the same rows, or raise the same code, end alike (R207). -/
theorem sameTables_of_rows {i : Instr} {s s' u u' t t' : State} {M : Nat} {R : Word}
    {x : Except ErrCode (List (List Word))} (hrows : ∀ rows, x = .ok rows → TableRows M rows)
    (hs : commandOf i s = x.map (u.storeTables M R)) (hs' : commandOf i s' = x.map (u'.storeTables M R))
    (hu : u.errCode = .ok) (hu' : u'.errCode = .ok) (h : exec i s = .next t) (h' : exec i s' = .next t') :
    sameTables M t t' := by
  cases x with
  | error c =>
    have hc : c ≠ .ok := commandOf_raises i s c hs
    cases (exec_of_error hs).symm.trans h
    cases (exec_of_error hs').symm.trans h'
    exact ⟨rfl, fun hok => absurd hok hc⟩
  | ok rows =>
    obtain ⟨hM, hlen, hrow⟩ := hrows rows rfl
    cases (exec_of_ok hs).symm.trans h
    cases (exec_of_ok hs').symm.trans h'
    refine ⟨hu.trans hu'.symm, fun _ => ⟨rfl, fun w hw => ?_⟩⟩
    have hword (v : State) := word_storeTables (s := v) (R := R) hM hlen hrow hw
    exact (hword u).trans (hword u').symm

section
variable {s s' : State} (hcfg : s.cfg = s'.cfg) (hM : s.tableSize = s'.tableSize) (hR : s.refRate = s'.refRate)
  (hA : s.amplitude = s'.amplitude)
include hcfg hM hR hA

/-- The operands that both builds check are the same. -/
theorem build_checks_congr : checkM s = checkM s' ∧ checkR s = checkR s' ∧ checkA s = checkA s' := by
  simp only [checkM, checkR, checkA, hcfg, hM, hR, hA, and_self]

/-- What BUILD stores depends on its operands and on SPEC[1 .. SPEC_LEN-1] alone (R207). -/
theorem buildTables_congr (hlen : s.specLen = s'.specLen)
    (hspec : ∀ k, 1 ≤ k → k < s.specLen.toNat → s.specEntry k = s'.specEntry k) :
    s.buildTables = s'.buildTables := by
  obtain ⟨hcheckM, hcheckR, hcheckA⟩ := build_checks_congr hcfg hM hR hA
  have hharm (k : Nat) (hk : 1 ≤ k) : s.harm k = s'.harm k := by
    simp only [State.harm, ← hlen]
    split
    · next hlt => exact hspec k hk hlt
    · rfl
  simp only [State.buildTables, hcheckM, hcheckR, hcheckA, hcfg, buildRows_congr hharm]

/-- What BUILD_AUDIO stores depends on its operands and on the samples alone (R207). -/
theorem buildAudioTables_congr (hlen : s.srcLen = s'.srcLen)
    (hxs : ∀ n < s.srcLen.toNat, s.word (sampleOffset n) = s'.word (sampleOffset n)) :
    s.buildAudioTables = s'.buildAudioTables := by
  obtain ⟨hcheckM, hcheckR, hcheckA⟩ := build_checks_congr hcfg hM hR hA
  have hcheckL : checkL s = checkL s' := by simp only [checkL, hcfg, hlen]
  simp only [State.buildAudioTables, hcheckL, hcheckM, hcheckR, hcheckA, hcfg]
  refine bind_congr_of_ok fun L hL => ?_
  obtain ⟨rfl, -⟩ := checkLength_ok _ _ _ hL
  have hwords : s.words (sampleOffset 0) s'.srcLen.toNat = s'.words (sampleOffset 0) s'.srcLen.toNat :=
    words_congr fun n hn => by simpa only [sampleOffset] using hxs n (hlen ▸ hn)
  simp only [checkSamples, hwords]

end

/-- Settles O46: both builds store the same rows or raise the same code. -/
theorem buildsAreIdempotent : Obligations.BuildsAreIdempotent := by
  intro s s' t t' hcfg hM hR hA hok hok' same
  refine ⟨fun hlen hspec h h' => ?_, fun hlen hxs h h' => ?_⟩
  · have hs' := buildCommand_eq_map s'
    rw [← buildTables_congr hcfg hM hR hA hlen hspec, ← hM, ← hR] at hs'
    exact sameTables_of_rows (i := .build) (fun _ => buildTables_ok) (buildCommand_eq_map s) hs' hok hok' h h'
  · have hs' := buildAudioCommand_eq_map s'
    rw [← buildAudioTables_congr hcfg hM hR hA hlen hxs, ← hM, ← hR] at hs'
    exact sameTables_of_rows (i := .buildAudio) (fun _ => buildAudioTables_ok) (buildAudioCommand_eq_map s) hs' hok hok' h
      h'

/-! ## The errors of the builds (R205, R210, R242) -/

section
variable {s : State}

/-- BUILD refuses a bad reference rate, and then a bad amplitude, with one code. -/
theorem buildCommand_badOperand (hM : legalLength s.tableSize.toNat s.cfg.tableSizeMax)
    (h : (isFinite s.refRate = false ∨ scaled s.refRate ≤ 0) ∨ isFinite s.amplitude = false) :
    buildCommand s = .error .badOperand := by
  simp only [buildCommand, checkM, checkLength_legal _ _ hM, ok_bind]
  rcases h with hR | hA
  · rw [checkR_illegal hR, error_bind]
  · cases hR : checkR s with
    | error e => rw [checkR_error _ _ hR, error_bind]
    | ok R => rw [ok_bind, checkA_not_finite hA, error_bind]

/-- BUILD_AUDIO refuses these, and then a sample that is not finite, with one code. -/
theorem buildAudioCommand_badOperand (hL : legalLength s.srcLen.toNat s.cfg.srcLenMax)
    (hM : legalLength s.tableSize.toNat s.cfg.tableSizeMax)
    (h : (isFinite s.refRate = false ∨ scaled s.refRate ≤ 0) ∨ isFinite s.amplitude = false ∨
      ∃ n < s.srcLen.toNat, isFinite (s.word (sampleOffset n)) = false) :
    buildAudioCommand s = .error .badOperand := by
  simp only [buildAudioCommand, checkL, checkM, checkLength_legal _ _ hL, checkLength_legal _ _ hM, ok_bind]
  cases hR : checkR s with
  | error e => rw [checkR_error _ _ hR, error_bind]
  | ok R =>
    cases hA : checkA s with
    | error e => rw [ok_bind, checkA_error _ _ hA, error_bind]
    | ok A =>
      have hsample : ¬ ∀ n < s.srcLen.toNat, isFinite (s.word (sampleOffset n)) = true := by
        rcases h with hbad | hbad | ⟨n, hn, hbad⟩
        · exact nomatch (checkR_illegal hbad).symm.trans hR
        · exact nomatch (checkA_not_finite hbad).symm.trans hA
        · exact fun hall => nomatch hbad.symm.trans (hall n hn)
      rw [ok_bind, ok_bind, checkSamples_eq, if_neg hsample, error_bind]

end

/-- Settles O48: the checks of the source length, the table size and the operands, in their order. -/
theorem buildErrors : Obligations.BuildErrors := by
  refine fun s => ⟨fun h => exec_of_error ?_, fun heven hmin hmax => exec_of_error ?_,
    fun hM h => exec_of_error (i := .build) (buildCommand_badOperand hM h), fun h => exec_of_error ?_,
    fun heven hmin hmax => exec_of_error ?_, fun hL h => exec_of_error ?_, fun hL heven hmin hmax => exec_of_error ?_,
    fun hL hM h => exec_of_error (i := .buildAudio) (buildAudioCommand_badOperand hL hM h)⟩
  · simp only [commandOf, buildCommand, checkM, checkLength_badLength h, error_bind]
  · simp only [commandOf, buildCommand, checkM, checkLength_capacity heven hmin hmax, error_bind]
  · simp only [commandOf, buildAudioCommand, checkL, checkLength_badLength h, error_bind]
  · simp only [commandOf, buildAudioCommand, checkL, checkLength_capacity heven hmin hmax, error_bind]
  · simp only [commandOf, buildAudioCommand, checkL, checkM, checkLength_legal _ _ hL, checkLength_badLength h, ok_bind,
      error_bind]
  · simp only [commandOf, buildAudioCommand, checkL, checkM, checkLength_legal _ _ hL,
      checkLength_capacity heven hmin hmax, ok_bind, error_bind]

end Sys2Proof.Machine

/-! # Completion and errors

Every command completes in the engine's one transition (R73, R243), precisely where it fails (R244), and nothing stops the
machine (R240, R245, R273). -/

namespace Sys2Proof.Machine

/-! ## What completion leaves (R243) -/

/-- What a command writes before its completion leaves the STATUS fields and enables of R243, and the configuration (R273). -/
theorem commandOf_keeps_fields {i : Instr} {s u : State} (hu : commandOf i s = .ok u) :
    u.err = s.err ∧ u.errCode = s.errCode ∧ u.cmdOverrun = s.cmdOverrun ∧ u.busyWrite = s.busyWrite ∧
      u.doneIe = s.doneIe ∧ u.errIe = s.errIe ∧ u.cfg = s.cfg := by
  rw [commandOf_changes hu]
  exact ⟨rfl, rfl, rfl, rfl, rfl, rfl, rfl⟩

/-- All a command can come to: its writes and the completion, or the completion with an error and nothing else. -/
theorem exec_completes (i : Instr) (s : State) :
    (∃ u, commandOf i s = .ok u ∧ exec i s = .next (u.complete .ok)) ∨
      (∃ code, code ≠ .ok ∧ exec i s = .next (s.completedWith code)) := by
  cases h : commandOf i s with
  | ok u => exact .inl ⟨u, rfl, exec_of_ok h⟩
  | error code => exact .inr ⟨code, commandOf_raises i s code h, exec_of_error h⟩

/-- And all the engine's transition can: a word that does not decode completes with its error too (R94). -/
theorem engineStep_completes (s : State) :
    (∃ i u, commandOf i s = .ok u ∧ engineStep s = .next (u.complete .ok)) ∨
      (∃ code, code ≠ .ok ∧ engineStep s = .next (s.completedWith code)) := by
  rcases engineStep_cases s with ⟨i, -, he⟩ | ⟨code, hd, he⟩ <;> rw [he]
  · exact (exec_completes i s).imp_left fun ⟨u, hu, hexec⟩ => ⟨i, u, hu, hexec⟩
  · have hne := decode_error_ne_ok s.cmd code hd
    exact .inr ⟨code, hne, congrArg _ (complete_eq_completedWith hne s)⟩

/-- Settles O7: a success keeps the cleared ERR and ERRCODE, and an error sets both. -/
theorem everyCommandCompletes : Obligations.EveryCommandCompletes := by
  intro i s herr hcode
  rcases exec_completes i s with ⟨u, hu, hexec⟩ | ⟨code, hne, hexec⟩
  · obtain ⟨huerr, hucode, hover, hwrite, hdoneIe, herrIe, -⟩ := commandOf_keeps_fields hu
    refine ⟨_, hexec, rfl, rfl, ?_, hover, hwrite, hdoneIe, herrIe⟩
    simp [huerr, herr, hucode, hcode]
  · exact ⟨_, hexec, rfl, rfl, iff_of_true rfl hne, rfl, rfl, rfl, rfl⟩

/-- Settles O8: a success leaves ERRCODE as it was, so an ERRCODE that is set is the code of an error. -/
theorem errorsArePrecise : Obligations.ErrorsArePrecise := by
  intro s t hcode ht hne
  rcases engineStep_completes s with ⟨i, u, hu, he⟩ | ⟨code, -, he⟩ <;> cases he.symm.trans ht
  · obtain ⟨-, hucode, -⟩ := commandOf_keeps_fields hu
    exact absurd (hucode.trans hcode) hne
  · rfl

/-! ## The configuration (R273) -/

@[simp] theorem State.abort_cfg (s : State) : s.abort.cfg = s.cfg := by rw [abort_changes]

@[simp] theorem State.softReset_cfg (s : State) : s.softReset.cfg = s.cfg := by simp [State.softReset]

theorem State.whenIdle_cfg {s t : State} (h : t.cfg = s.cfg) : (s.whenIdle t).cfg = s.cfg := by
  unfold State.whenIdle
  split
  · rfl
  · exact h

@[simp] theorem State.writeReg_cfg (s : State) (r : Reg) (v : Word) : (s.writeReg r v).cfg = s.cfg := by
  cases r with
  | id | version | caps0 | caps1 | caps2 | result0 | result1 | resultIndex | harmCount | irqEn | status => rfl
  | ctrl =>
    simp only [State.writeReg]
    split
    · exact State.softReset_cfg s
    · rfl
  | cmd =>
    simp only [State.writeReg]
    split <;> rfl
  | srcLen | tableSize | refRate | amplitude | cutoff | freq | index | specLen => exact State.whenIdle_cfg rfl

@[simp] theorem State.hostWrite_cfg (s : State) (a : Nat) (v : Word) : (s.hostWrite a v).cfg = s.cfg := by
  unfold State.hostWrite
  cases locate s.cfg a with
  | reg r => exact State.writeReg_cfg s r v
  | reserved | f2i | sf | unmapped => rfl
  | sample | spec | tab => exact State.whenIdle_cfg rfl

@[simp] theorem State.hostEvent_cfg (s : State) (e : HostEvent) : (s.hostEvent e).cfg = s.cfg := by
  cases e with
  | read a narrow => rfl
  | write a narrow lanes v =>
    cases hr : writeRefused s.cfg a.toNat narrow lanes with
    | true => rw [hostEvent_write_refused hr]
    | false => rw [hostEvent_write_okay hr]; exact State.hostWrite_cfg s a.toNat v
  | hardReset => exact s.hardReset_cfg

/-- The engine's transition always has a next state (R245), of the same configuration. -/
theorem exists_engineStep_next (s : State) : ∃ t, engineStep s = .next t ∧ t.cfg = s.cfg := by
  rcases engineStep_completes s with ⟨i, u, hu, he⟩ | ⟨code, -, he⟩
  · obtain ⟨-, -, -, -, -, -, hcfg⟩ := commandOf_keeps_fields hu
    exact ⟨_, he, hcfg⟩
  · exact ⟨_, he, rfl⟩

/-- Settles O6: a step is nothing, an event from outside, or the engine's transition, and each has a next state. -/
theorem everyStateSteps : Obligations.EveryStateSteps := by
  intro s
  rcases step_cases s with ⟨-, -, hs⟩ | ⟨e, es, -, -, hs⟩ | ⟨n, e, es, -, -, hs⟩ | ⟨n, -, -, hs⟩
  · exact ⟨s, hs, rfl⟩
  · exact ⟨_, hs, State.hostEvent_cfg _ e⟩
  · exact ⟨_, hs, State.hostEvent_cfg _ e⟩
  · rw [hs]
    exact exists_engineStep_next s

end Sys2Proof.Machine

/-! # Hard reset

The base case of the invariant (R270), in the reference configuration of R6; `stepKeepsInvariant` is the step. -/

namespace Sys2Proof.Machine

/-- The reference values of R6 meet its constraints. -/
theorem reference_wf : Config.reference.wf := by decide

/-- Power-on contents: no byte has been written yet, so none is listed (R52). -/
theorem Memory.inRam_empty (c : Config) : Memory.inRam c ⟨[]⟩ :=
  ⟨List.Pairwise.nil, fun _ hx => absurd hx List.not_mem_nil⟩

/-- Settles O11: what a reset leaves meets the invariant over any memory of RAM words, here one with nothing written. -/
theorem invariantAtReset : Obligations.InvariantAtReset :=
  inv_afterReset reference_wf (Memory.inRam_empty Config.reference) 0 1 [] none

end Sys2Proof.Machine
